-- ==== Sys2Proof/Word.lean ====
section
/-! DEFINITION. The 16-bit word of the block: a cell, a register, a pixel, a line color, a mask (00_scope.md R8). -/

namespace Sys2Proof

/-- A `u16`: one VRAM cell, one control register, one mask, one pixel word (R8). -/
abbrev Word := BitVec 16

/-- `VRAM_CELLS` (R6): the number of 16-bit cells of the VRAM. -/
abbrev vramCells : Nat := 0x8000

end Sys2Proof
end

