-- ==== Sys2Proof/Config.lean ====
section
/-! DEFINITION. What construction fixes: the five parameters of 00_scope.md R5 and the OPEN ones of R7. -/

namespace Sys2Proof

/-- The layout mode, fixed at construction (R5, R32, R33). -/
inductive Layout where
  | standard
  | double
  deriving DecidableEq, Repr

/-- `BYTE_ORDER` (R7, R40): which platform byte of a cell drives which lane. No operation reads it. -/
inductive ByteOrder where
  | big
  | little
  deriving DecidableEq, Repr

/-- `NTILES` (R6): tiles of one bank, 64x64 or 128x64. -/
def Layout.nTiles : Layout → Nat
  | .standard => 0x1000
  | .double => 0x2000

/-- The configuration record of R5 and R17, with the OPEN parameters of R7. -/
structure Config where
  layout : Layout
  xOffs : Int
  yOffs : Int
  yInvert : Bool
  roadRecolor : Bool
  xOriginBias : Int
  transparentMarker : Word
  byteOrder : ByteOrder
  deriving DecidableEq, Repr

/-- The configuration `State.reset` is built with: the spec's defaults for the OPEN parameters (D17, D21),
DESIGN CHOICE for the rest (log 2; unsafe for a claim about `State.reset` itself). No other definition uses it. -/
def Config.default : Config :=
  { layout := .standard, xOffs := 0, yOffs := 0, yInvert := false, roadRecolor := true,
    xOriginBias := 16, transparentMarker := 0x8000, byteOrder := .big }

end Sys2Proof
end

