-- ==== Sys2Proof/Syntax.lean ====
section
/-! DEFINITION. The 18 operations of 30_encoding.md R57 with their operands, and the transfers that carry them. -/

namespace Sys2Proof

/-- The clip rectangle, all four bounds inclusive, in screen pixels (R53, R100). -/
structure Clip where
  minX : Int
  maxX : Int
  minY : Int
  maxY : Int
  deriving DecidableEq, Repr

/-- A 512x512 plane of the backend, row by row (R24). -/
abbrev Plane (α : Type) := Vector (Vector α 512) 512

/-- The two planes of the addressed bank as DRAW_SPECIAL finds them (R24, R134 'road pass inputs').
They are an oracle: no rule constrains them, so they arrive with the operation (log 7; safe). -/
structure Planes where
  pix : Plane Word
  flag : Plane Bool
  deriving DecidableEq, Repr

/-- `cct`, the color-control table: the 256 entries the block can read (R25, D40). -/
abbrev ColorTable := Vector Word 256

/-- A VRAM image of STATE_SAVE and STATE_LOAD (R69): an array of `length` words.
Word `k` of it is the word `cells` lists first at `k`, and 0x0000 where `cells` lists none (log 12). -/
structure VramImage where
  length : Nat
  cells : List (Nat × Word)
  deriving DecidableEq, Repr

/-- The operations (R57), one constructor per row of spec/opcode_table.json. Operands are natural numbers where
the spec checks a range (R70 to R74, R80, R100), so that the check is part of the meaning. -/
inductive Instr where
  | vramRd (offset : Nat)
  | vramWr (offset : Nat) (data mask : Word)
  | xscrWr (bank : Nat) (data mask : Word)
  | yscrWr (bank : Nat) (data mask : Word)
  | ctrlWr (offset : Nat) (data mask : Word)
  | reset
  | stateSave
  | stateLoad (vramImage : VramImage) (ctrlImage : List Word)
  | restoreScroll
  | tmapUpdate
  | tileDec (bank i : Nat)
  | beRedecode (bank i : Nat)
  | setScroll (bank : Nat) (x y : Int)
  | setTpen (bank pen : Nat)
  | draw (bank : Nat) (clip : Clip) (opaqueMode : Bool) (priority pmask : Nat)
  | drawOfs (bank : Nat) (clip : Clip) (opaqueMode : Bool) (priority pmask : Nat) (extraDx extraDy : Int)
  | drawSpecial (bank : Nat) (clip : Clip) (opaqueMode : Bool) (cct : ColorTable) (priority pmask : Nat)
      (planes : Planes)
  | roadPix (pixel lineColor : Word)
  deriving DecidableEq, Repr

/-- The name of the operation as R57 and the opcode table spell it. -/
def Instr.mnemonic : Instr → String
  | .vramRd _ => "VRAM_RD"
  | .vramWr _ _ _ => "VRAM_WR"
  | .xscrWr _ _ _ => "XSCR_WR"
  | .yscrWr _ _ _ => "YSCR_WR"
  | .ctrlWr _ _ _ => "CTRL_WR"
  | .reset => "RESET"
  | .stateSave => "STATE_SAVE"
  | .stateLoad _ _ => "STATE_LOAD"
  | .restoreScroll => "RESTORE_SCROLL"
  | .tmapUpdate => "TMAP_UPDATE"
  | .tileDec _ _ => "TILE_DEC"
  | .beRedecode _ _ => "BE_REDECODE"
  | .setScroll _ _ _ => "SET_SCROLL"
  | .setTpen _ _ => "SET_TPEN"
  | .draw _ _ _ _ _ => "DRAW"
  | .drawOfs _ _ _ _ _ _ _ => "DRAW_OFS"
  | .drawSpecial _ _ _ _ _ _ _ => "DRAW_SPECIAL"
  | .roadPix _ _ => "ROAD_PIX"

/-- The operand record of an SB transfer (R53), with a slot for every operand kind. An operation takes the slots
R53 lists for its selector and ignores the others (log 6; safe). -/
structure SbRecord where
  bank : Nat
  i : Nat
  x : Int
  y : Int
  pen : Nat
  clip : Clip
  opaqueMode : Bool
  priority : Nat
  pmask : Nat
  extraDx : Int
  extraDy : Int
  cct : ColorTable
  planes : Planes
  pixel : Word
  lineColor : Word
  vramImage : VramImage
  ctrlImage : List Word
  deriving DecidableEq, Repr

/-- The record whose every operand is zero: tables, planes and images full of zero words. -/
def SbRecord.zero : SbRecord :=
  { bank := 0, i := 0, x := 0, y := 0, pen := 0, clip := ⟨0, 0, 0, 0⟩, opaqueMode := false, priority := 0,
    pmask := 0, extraDx := 0, extraDy := 0, cct := Vector.replicate 256 0,
    planes := ⟨Vector.replicate 512 (Vector.replicate 512 0), Vector.replicate 512 (Vector.replicate 512 false)⟩,
    pixel := 0, lineColor := 0, vramImage := ⟨vramCells, []⟩, ctrlImage := [0, 0, 0, 0, 0] }

/-- One transfer from the environment (R50): a bus transaction word (R51) or a sideband command (R53). -/
inductive Packet where
  | bt (word : BitVec 50)
  | sb (selector : BitVec 4) (operands : SbRecord)
  deriving DecidableEq, Repr

end Sys2Proof
end

