-- ==== Sys2Proof/WellFormed.lean ====
section
/-! DEFINITION. Which operand values an encoding admits (30_encoding.md R53, R55, R69). -/

namespace Sys2Proof

/-- Strictly ascending keys: the canonical order of every sparse list of the model. -/
abbrev Ascending {α : Type} (m : List (Nat × α)) : Prop := m.Pairwise (fun p q => p.1 < q.1)

/-- The image is an array of 32768 words (R69), written in its one canonical form. -/
def VramImage.wf (img : VramImage) : Bool :=
  decide (img.length = vramCells) && decide (Ascending img.cells) &&
    img.cells.all (fun p => decide (p.1 < vramCells) && decide (p.2 ≠ 0))

/-- Operands inside the ranges of R53 and R55 (d); the tile index range depends on the layout (R6). -/
def Instr.wf (lay : Layout) : Instr → Bool
  | .vramRd offset => decide (offset < vramCells)
  | .vramWr offset _ _ => decide (offset < vramCells)
  | .xscrWr bank _ _ => decide (bank < 2)
  | .yscrWr bank _ _ => decide (bank < 2)
  | .ctrlWr offset _ _ => decide (offset < 1)
  | .reset => true
  | .stateSave => true
  | .stateLoad vramImage ctrlImage => vramImage.wf && decide (ctrlImage.length = 5)
  | .restoreScroll => true
  | .tmapUpdate => true
  | .tileDec bank i => decide (bank < 2) && decide (i < lay.nTiles)
  | .beRedecode bank i => decide (bank < 2) && decide (i < lay.nTiles)
  | .setScroll bank _ _ => decide (bank < 2)
  | .setTpen bank _ => decide (bank < 2)
  | .draw bank _ _ _ _ => decide (bank < 2)
  | .drawOfs bank _ _ _ _ _ _ => decide (bank < 2)
  | .drawSpecial bank _ _ _ _ _ _ => decide (bank < 2)
  | .roadPix _ _ => true

end Sys2Proof
end

