-- ==== Sys2Proof/Decode.lean ====
section
/-! DEFINITION. From a transfer to an operation and back: format BT (30_encoding.md R51, R52), format SB (R53),
the reserved space (R55), and the opcode table's match and mask pairs. -/

namespace Sys2Proof

/-- Why a transfer is no operation (R55, R121): it raises ContractViolation with this reason. -/
inductive DecodeError where
  /-- A register window offset beyond the window's extent (R55 (b)). -/
  | outOfRange
  /-- A read of a register window, or an unassigned selector (R55 (a), (c)). -/
  | noSuchOperation
  deriving DecidableEq, Repr

/-- BT[49]: 0 read, 1 write (R51). -/
def btRw (w : BitVec 50) : BitVec 1 := w.extractLsb' 49 1

/-- BT[48:47]: the window (R51). -/
def btWin (w : BitVec 50) : BitVec 2 := w.extractLsb' 47 2

/-- BT[46:32]: the halfword offset within the window (R51). -/
def btOffset (w : BitVec 50) : Nat := (w.extractLsb' 32 15).toNat

/-- BT[31:16]: the write mask (R51). -/
def btMask (w : BitVec 50) : Word := w.extractLsb' 16 16

/-- BT[15:0]: the write data (R51). -/
def btData (w : BitVec 50) : Word := w.extractLsb' 0 16

/-- The decode table of R52, row by row; what is left is reserved with the reason of R121. -/
def decodeBt (w : BitVec 50) : Except DecodeError Instr :=
  if btRw w = 0 then
    if btWin w = 0 then .ok (.vramRd (btOffset w)) else .error .noSuchOperation
  else if btWin w = 0 then .ok (.vramWr (btOffset w) (btData w) (btMask w))
  else if btWin w = 1 then
    if btOffset w < 2 then .ok (.xscrWr (btOffset w) (btData w) (btMask w)) else .error .outOfRange
  else if btWin w = 2 then
    if btOffset w < 2 then .ok (.yscrWr (btOffset w) (btData w) (btMask w)) else .error .outOfRange
  else
    if btOffset w < 1 then .ok (.ctrlWr (btOffset w) (btData w) (btMask w)) else .error .outOfRange

/-- The selector table of R53. Operand ranges are checked by the operations (R121, R124). -/
def decodeSb (selector : BitVec 4) (r : SbRecord) : Except DecodeError Instr :=
  match selector.toNat with
  | 0x0 => .ok .reset
  | 0x1 => .ok .stateSave
  | 0x2 => .ok (.stateLoad r.vramImage r.ctrlImage)
  | 0x3 => .ok .restoreScroll
  | 0x4 => .ok .tmapUpdate
  | 0x5 => .ok (.tileDec r.bank r.i)
  | 0x6 => .ok (.beRedecode r.bank r.i)
  | 0x7 => .ok (.setScroll r.bank r.x r.y)
  | 0x8 => .ok (.setTpen r.bank r.pen)
  | 0x9 => .ok (.draw r.bank r.clip r.opaqueMode r.priority r.pmask)
  | 0xA => .ok (.drawOfs r.bank r.clip r.opaqueMode r.priority r.pmask r.extraDx r.extraDy)
  | 0xB => .ok (.drawSpecial r.bank r.clip r.opaqueMode r.cct r.priority r.pmask r.planes)
  | 0xC => .ok (.roadPix r.pixel r.lineColor)
  | _ => .error .noSuchOperation

/-- The decoder, total on every transfer. -/
def decode : Packet → Except DecodeError Instr
  | .bt w => decodeBt w
  | .sb selector r => decodeSb selector r

/-- A BT word from its five fields (R51). -/
def btWord (rw : BitVec 1) (win : BitVec 2) (offset : Nat) (mask data : Word) : BitVec 50 :=
  rw ++ win ++ BitVec.ofNat 15 offset ++ mask ++ data

/-- The transfer that carries an operation (R51, R53). Ignored fields and unused slots are zero. -/
def encode : Instr → Packet
  | .vramRd offset => .bt (btWord 0 0 offset 0 0)
  | .vramWr offset data mask => .bt (btWord 1 0 offset mask data)
  | .xscrWr bank data mask => .bt (btWord 1 1 bank mask data)
  | .yscrWr bank data mask => .bt (btWord 1 2 bank mask data)
  | .ctrlWr offset data mask => .bt (btWord 1 3 offset mask data)
  | .reset => .sb 0x0 .zero
  | .stateSave => .sb 0x1 .zero
  | .stateLoad vramImage ctrlImage =>
    .sb 0x2 { SbRecord.zero with vramImage := vramImage, ctrlImage := ctrlImage }
  | .restoreScroll => .sb 0x3 .zero
  | .tmapUpdate => .sb 0x4 .zero
  | .tileDec bank i => .sb 0x5 { SbRecord.zero with bank := bank, i := i }
  | .beRedecode bank i => .sb 0x6 { SbRecord.zero with bank := bank, i := i }
  | .setScroll bank x y => .sb 0x7 { SbRecord.zero with bank := bank, x := x, y := y }
  | .setTpen bank pen => .sb 0x8 { SbRecord.zero with bank := bank, pen := pen }
  | .draw bank clip opaqueMode priority pmask =>
    .sb 0x9 { SbRecord.zero with
      bank := bank, clip := clip, opaqueMode := opaqueMode, priority := priority, pmask := pmask }
  | .drawOfs bank clip opaqueMode priority pmask extraDx extraDy =>
    .sb 0xA { SbRecord.zero with
      bank := bank, clip := clip, opaqueMode := opaqueMode, priority := priority, pmask := pmask,
      extraDx := extraDx, extraDy := extraDy }
  | .drawSpecial bank clip opaqueMode cct priority pmask planes =>
    .sb 0xB { SbRecord.zero with
      bank := bank, clip := clip, opaqueMode := opaqueMode, cct := cct, priority := priority, pmask := pmask,
      planes := planes }
  | .roadPix pixel lineColor => .sb 0xC { SbRecord.zero with pixel := pixel, lineColor := lineColor }

/-- One row of spec/opcode_table.json: the bits `mask` covers must equal `value` (R52, R53). -/
structure TableRow where
  mnemonic : String
  bus : Bool
  mask : Nat
  value : Nat
  deriving DecidableEq, Repr

/-- The five rows of format BT (R52). -/
def btRows : List TableRow :=
  [⟨"VRAM_RD", true, 0x3800000000000, 0x0000000000000⟩,
   ⟨"VRAM_WR", true, 0x3800000000000, 0x2000000000000⟩,
   ⟨"XSCR_WR", true, 0x3FFFE00000000, 0x2800000000000⟩,
   ⟨"YSCR_WR", true, 0x3FFFE00000000, 0x3000000000000⟩,
   ⟨"CTRL_WR", true, 0x3FFFF00000000, 0x3800000000000⟩]

/-- The thirteen rows of format SB (R53). -/
def sbRows : List TableRow :=
  [⟨"RESET", false, 0xF, 0x0⟩, ⟨"STATE_SAVE", false, 0xF, 0x1⟩, ⟨"STATE_LOAD", false, 0xF, 0x2⟩,
   ⟨"RESTORE_SCROLL", false, 0xF, 0x3⟩, ⟨"TMAP_UPDATE", false, 0xF, 0x4⟩, ⟨"TILE_DEC", false, 0xF, 0x5⟩,
   ⟨"BE_REDECODE", false, 0xF, 0x6⟩, ⟨"SET_SCROLL", false, 0xF, 0x7⟩, ⟨"SET_TPEN", false, 0xF, 0x8⟩,
   ⟨"DRAW", false, 0xF, 0x9⟩, ⟨"DRAW_OFS", false, 0xF, 0xA⟩, ⟨"DRAW_SPECIAL", false, 0xF, 0xB⟩,
   ⟨"ROAD_PIX", false, 0xF, 0xC⟩]

/-- Whether a transfer's word or selector is one the row matches. -/
def TableRow.covers (row : TableRow) : Packet → Bool
  | .bt w => row.bus && decide (w &&& BitVec.ofNat 50 row.mask = BitVec.ofNat 50 row.value)
  | .sb selector _ => !row.bus && decide (selector &&& BitVec.ofNat 4 row.mask = BitVec.ofNat 4 row.value)

/-- The transfer spec/opcode_table.json's word `w` of `nbits` bits stands for, operand records all zero:
a BT word from 50 bits up, a selector below (log 14). None where `w` has a bit outside the format. -/
def packetOfTableWord (nbits w : Nat) : Option Packet :=
  if 50 ≤ nbits then
    if w < 2 ^ 50 then some (.bt (BitVec.ofNat 50 w)) else none
  else
    if w < 2 ^ 4 then some (.sb (BitVec.ofNat 4 w) .zero) else none

/-- What the decoder reads from a table word (the host asks it per table row). -/
def decodeTableWord (nbits w : Nat) : Option Instr :=
  match packetOfTableWord nbits w with
  | some p => (decode p).toOption
  | none => none

end Sys2Proof
end

