-- ==== Sys2Proof/Machine/State.lean ====
section
/-! DEFINITION. The state of the block as plain data (10_state.md), the reasons a step can stop, and the state
after reset (R29, R135). -/

namespace Sys2Proof.Machine

/-- The two tilemap banks (R6): bank 0 the background, bank 1 the foreground. -/
inductive Bank where
  | bg
  | fg
  deriving DecidableEq, Repr

/-- One value per bank. -/
@[ext]
structure PerBank (α : Type) where
  bank0 : α
  bank1 : α
  deriving DecidableEq, Repr

/-- `ctrl[0..4]` (R11), each register under its own name. -/
@[ext]
structure CtrlRegs where
  xscr0 : Word
  xscr1 : Word
  yscr0 : Word
  yscr1 : Word
  control : Word
  deriving DecidableEq, Repr

/-- `vram` (R10): cell index and word, strictly ascending, no cell that holds 0x0000. An unlisted cell reads
0x0000, the reset content R10 gives (log 3). -/
abbrev Memory := List (Nat × Word)

/-- A set of tile indices (R20), strictly ascending. -/
abbrev TileSet := List Nat

/-- The row scroll latches of one bank that have been written (R23), strictly ascending by row. -/
abbrev RowLatches := List (Nat × Int)

/-- A decoded tile (R67). -/
@[ext]
structure TileRecord where
  code : BitVec 14
  color : BitVec 9
  flipx : Bool
  flipy : Bool
  deriving DecidableEq, Repr

/-- A command to the backend or the scanline blitter (R22). -/
inductive Command where
  | markTileDirty (bank : Bank) (index : Nat)
  | setScrollX (bank : Bank) (row : Nat) (value : Int)
  | setScrollY (bank : Bank) (value : Int)
  | setFlip (bank : Bank) (flipx flipy : Bool)
  | setTransparentPen (bank : Bank) (pen : Nat)
  | draw (bank : Bank) (clip : Clip) (opaqueMode : Bool) (priority pmask : Nat) (dx dy : Int) (flip : Bool)
  | scanline (y : Int) (buf : List Word) (transparentMode : Bool) (priority pmask : Nat)
  deriving DecidableEq, Repr

/-- What an operation returns to its issuer (R51, the result column of R53). -/
inductive OpResult where
  | cell (value : Word)
  | tile (tileRecord : TileRecord)
  | images (vramImage : VramImage) (ctrlImage : List Word)
  | pixel (value : Word)
  deriving DecidableEq, Repr

/-- The backend latches of R23. A latch nothing has written holds no value: `none`, or an unlisted row (log 8). -/
@[ext]
structure Backend where
  scrollY : PerBank (Option Int)
  scrollX : PerBank RowLatches
  flip : PerBank (Bool × Bool)
  tpen : PerBank (Option Nat)
  deriving DecidableEq, Repr

/-- The state. `cfg` is the configuration, a parameter no step writes (R17, log 1). `out`, `result` and `input`
are the block's side of the host interface (R22, R134): commands emitted, oldest first; what the last operation
returned; transfers not yet executed (log 4, log 5). -/
@[ext]
structure State where
  cfg : Config
  vram : Memory
  ctrl : CtrlRegs
  scrollx : PerBank Int
  scrolly : PerBank Int
  flip : Bool
  tpen : PerBank (Option Nat)
  dirty : PerBank TileSet
  needRestore : Bool
  be : Backend
  out : List Command
  result : Option OpResult
  input : List Packet
  deriving DecidableEq, Repr

/-- ContractViolation and its five reasons (R120, R121). Each ends the run with no state change.
Safe: the model stops where the spec says the behaviour is undefined or fatal. -/
inductive Fault where
  /-- Code 1. A window offset, bank or tile index out of range; raised by the bus operations, the tile operations,
  SET_SCROLL, SET_TPEN, the draws, and the decoder for a register window offset (R121, R122). Safe. -/
  | outOfRange
  /-- Code 2. A read of a register window or an unassigned selector; raised by the decoder (R55, R121). Safe. -/
  | noSuchOperation
  /-- Code 3. TMAP_UPDATE or a draw while `needRestore` is set (R123). Safe. -/
  | restorePending
  /-- Code 4. DRAW_SPECIAL in DOUBLE layout (R103, R121). Safe. -/
  | noRowTable
  /-- Code 5. STATE_LOAD with an image of another length (R121, R137). Safe. -/
  | badImage
  deriving DecidableEq, Repr

/-- Where the model gives no next state for another reason than the spec's one fault class. -/
inductive Refusal where
  /-- An operation that has no meaning in the model yet. No arm raises it now. Safe. -/
  | notModelled (mnemonic : String)
  /-- The environment has issued no operation: raised by the step on an empty `input` (R133, log 4). Safe. -/
  | noOperation
  deriving DecidableEq, Repr

/-- Every tile of a bank (R20, R135). -/
def allTiles (lay : Layout) : TileSet := List.range lay.nTiles

/-- `MarkTileDirty` for every tile of both banks (R135, R137). DESIGN CHOICE: the rules give these commands no order
among themselves; here bank 0 comes before bank 1 and a bank's tiles ascend (log 16; unsafe for a claim about that
order). -/
def markAllCommands (lay : Layout) : List Command :=
  (allTiles lay).map (Command.markTileDirty .bg) ++ (allTiles lay).map (Command.markTileDirty .fg)

/-- What RESET emits (R135). -/
def resetCommands (lay : Layout) : List Command :=
  markAllCommands lay ++ [.setFlip .bg false false, .setFlip .fg false false]

/-- The state after construction with `cfg` and RESET (R29, R135, R138). -/
def State.resetOf (cfg : Config) : State :=
  { cfg := cfg
    vram := []
    ctrl := ⟨0, 0, 0, 0, 0⟩
    scrollx := ⟨0, 0⟩
    scrolly := ⟨0, 0⟩
    flip := false
    tpen := ⟨none, none⟩
    dirty := ⟨allTiles cfg.layout, allTiles cfg.layout⟩
    needRestore := false
    be := { scrollY := ⟨none, none⟩, scrollX := ⟨[], []⟩, flip := ⟨(false, false), (false, false)⟩,
            tpen := ⟨none, none⟩ }
    out := resetCommands cfg.layout
    result := none
    input := [] }

/-- The state after reset of the block the model is run with by default (log 2). -/
def State.reset : State := State.resetOf Config.default

/-! Writes of one field, through which every operation goes. -/

def State.withVram (s : State) (v : Memory) : State := { s with vram := v }
def State.withCtrl (s : State) (v : CtrlRegs) : State := { s with ctrl := v }
def State.withScrollx (s : State) (v : PerBank Int) : State := { s with scrollx := v }
def State.withScrolly (s : State) (v : PerBank Int) : State := { s with scrolly := v }
def State.withFlip (s : State) (v : Bool) : State := { s with flip := v }
def State.withTpen (s : State) (v : PerBank (Option Nat)) : State := { s with tpen := v }
def State.withDirty (s : State) (v : PerBank TileSet) : State := { s with dirty := v }
def State.withNeedRestore (s : State) (v : Bool) : State := { s with needRestore := v }
def State.withBe (s : State) (v : Backend) : State := { s with be := v }
def State.withOut (s : State) (v : List Command) : State := { s with out := v }
def State.withResult (s : State) (v : Option OpResult) : State := { s with result := v }
def State.withInput (s : State) (v : List Packet) : State := { s with input := v }

end Sys2Proof.Machine
end

