-- ==== Sys2Proof/Machine/Ops.lean ====
section
/-! DEFINITION. The named operations over memory, registers, dirty marks and the command stream, and the one fault
operation. -/

namespace Sys2Proof.Machine

/-- What an operation answers. -/
abbrev StepOutcome := Host.Outcome State Fault Refusal

/-- `raise ContractViolation(reason)` (R120, R126): the operation ends, nothing changes, nothing is emitted. There is
no trap entry, no saved register, no vector and no return beside it (R126, R127). -/
def raise (reason : Fault) : StepOutcome := .fault reason

/-- The reason code of R121, for diagnostics only. -/
def Fault.code : Fault → Nat
  | .outOfRange => 1
  | .noSuchOperation => 2
  | .restorePending => 3
  | .noRowTable => 4
  | .badImage => 5

/-- The operation ends with a result for its issuer. -/
def State.answer (s : State) (r : OpResult) : StepOutcome := .next (s.withResult (some r))

/-- The operation ends and returns nothing. -/
def State.done (s : State) : StepOutcome := .next (s.withResult none)

/-! Banks and registers -/

/-- The bank an operand names; none for 2 and more (R55 (d), R121). -/
def bankOf : Nat → Option Bank
  | 0 => some .bg
  | 1 => some .fg
  | _ => none

/-- The number of a bank (R6). -/
def Bank.num : Bank → Nat
  | .bg => 0
  | .fg => 1

def PerBank.get {α : Type} (p : PerBank α) : Bank → α
  | .bg => p.bank0
  | .fg => p.bank1

def PerBank.set {α : Type} (p : PerBank α) (b : Bank) (v : α) : PerBank α :=
  match b with
  | .bg => { p with bank0 := v }
  | .fg => { p with bank1 := v }

/-- `merge(old, v, m)` of R8: the bits `m` covers come from `v`. -/
def merge (old v m : Word) : Word := (old &&& ~~~m) ||| (v &&& m)

/-- `ctrl[k]` (R11). -/
def CtrlRegs.get (c : CtrlRegs) (k : Fin 5) : Word :=
  match k with
  | 0 => c.xscr0
  | 1 => c.xscr1
  | 2 => c.yscr0
  | 3 => c.yscr1
  | 4 => c.control

/-- `ctrl[k] <- v` (R11). -/
def CtrlRegs.set (c : CtrlRegs) (k : Fin 5) (v : Word) : CtrlRegs :=
  match k with
  | 0 => { c with xscr0 := v }
  | 1 => { c with xscr1 := v }
  | 2 => { c with yscr0 := v }
  | 3 => { c with yscr1 := v }
  | 4 => { c with control := v }

/-- The register of a bank's x scroll, `ctrl[bank]` (R11, R54). -/
def xReg : Bank → Fin 5
  | .bg => 0
  | .fg => 1

/-- The register of a bank's y scroll, `ctrl[2 + bank]` (R11, R54). -/
def yReg : Bank → Fin 5
  | .bg => 2
  | .fg => 3

/-- The masked write of a control register (R11, R75). -/
def State.mergeCtrl (s : State) (k : Fin 5) (data mask : Word) : State :=
  s.withCtrl (s.ctrl.set k (merge (s.ctrl.get k) data mask))

/-- The five registers in index order (R69). -/
def CtrlRegs.toImage (c : CtrlRegs) : List Word := [c.xscr0, c.xscr1, c.yscr0, c.yscr1, c.control]

/-- The registers of a `ctrl` image; none when it does not have five elements (R137). -/
def CtrlRegs.ofImage : List Word → Option CtrlRegs
  | [a, b, c, d, e] => some ⟨a, b, c, d, e⟩
  | _ => none

/-! Sparse lists -/

/-- The value listed at key `a`, the first one if there are several. -/
def findAt {α : Type} : List (Nat × α) → Nat → Option α
  | [], _ => none
  | (k, v) :: m, a => if k = a then some v else findAt m a

/-- The value at key `a` becomes `v`, in ascending place. -/
def insertAt {α : Type} : List (Nat × α) → Nat → α → List (Nat × α)
  | [], a, v => [(a, v)]
  | (k, w) :: m, a, v =>
    if a < k then (a, v) :: (k, w) :: m
    else if a = k then (a, v) :: m
    else (k, w) :: insertAt m a v

/-- Nothing is listed at key `a`. -/
def eraseAt {α : Type} (m : List (Nat × α)) (a : Nat) : List (Nat × α) := m.filter (fun p => decide (p.1 ≠ a))

/-! The VRAM -/

/-- `vram[a]` (R8); 0x0000 where nothing is listed (R10). -/
def Memory.read (m : Memory) (a : Nat) : Word := (findAt m a).getD 0

/-- `vram[a] <- v` (R8), keeping the canonical form. -/
def Memory.write (m : Memory) (a : Nat) (v : Word) : Memory := if v = 0 then eraseAt m a else insertAt m a v

/-- The canonical form: ascending, inside the VRAM, no word 0x0000 listed. -/
def Memory.wf (m : Memory) : Bool :=
  decide (Ascending m) && m.all (fun p => decide (p.1 < vramCells) && decide (p.2 ≠ 0))

/-- The VRAM that holds word `k` of an image in cell `k` (R137). -/
def Memory.ofCells (cells : List (Nat × Word)) : Memory :=
  cells.foldr (fun p m => if p.1 < vramCells then Memory.write m p.1 p.2 else m) []

/-- The VRAM as an image of 32768 words (R69, R136). -/
def Memory.toImage (m : Memory) : VramImage := ⟨vramCells, m⟩

/-- Word `k` of an image (R69). -/
def imageWord (img : VramImage) (k : Nat) : Word := (findAt img.cells k).getD 0

/-- `vram[a]` in a state. -/
def State.readVram (s : State) (a : Nat) : Word := s.vram.read a

/-- `vram[a] <- merge(vram[a], data, mask)` (R71). -/
def State.mergeVram (s : State) (a : Nat) (data mask : Word) : State :=
  s.withVram (s.vram.write a (merge (s.readVram a) data mask))

/-! The command stream and the backend latches it writes -/

/-- What a command does to the latches (R23). The other commands leave them alone. -/
def Backend.apply (be : Backend) : Command → Backend
  | .setScrollX b row v => { be with scrollX := be.scrollX.set b (insertAt (be.scrollX.get b) row v) }
  | .setScrollY b v => { be with scrollY := be.scrollY.set b (some v) }
  | .setFlip b fx fy => { be with flip := be.flip.set b (fx, fy) }
  | .setTransparentPen b pen => { be with tpen := be.tpen.set b (some pen) }
  | .markTileDirty _ _ => be
  | .draw _ _ _ _ _ _ _ _ => be
  | .scanline _ _ _ _ _ => be

/-- `emit`, a list of commands in order (R8, R22, R23). -/
def State.emit (s : State) (cs : List Command) : State :=
  (s.withOut (s.out ++ cs)).withBe (cs.foldl Backend.apply s.be)

/-- `be_scrollx[b][row]` (R23); none where nothing has written the latch. -/
def Backend.rowScroll (be : Backend) (b : Bank) (row : Nat) : Option Int := findAt (be.scrollX.get b) row

/-! The dirty marks -/

/-- A set with `i` added. -/
def insertTile : TileSet → Nat → TileSet
  | [], i => [i]
  | j :: t, i => if i < j then i :: j :: t else if i = j then j :: t else j :: insertTile t i

/-- A set with `i` removed. -/
def eraseTile (t : TileSet) (i : Nat) : TileSet := t.filter (fun j => decide (j ≠ i))

/-- Tile `i` of bank `b` is marked. -/
abbrev State.isDirty (s : State) (b : Bank) (i : Nat) : Prop := i ∈ s.dirty.get b

/-- `dirty[b] <- dirty[b] + {i}; emit MarkTileDirty(b, i)` (R71). -/
def State.markTile (s : State) (b : Bank) (i : Nat) : State :=
  (s.withDirty (s.dirty.set b (insertTile (s.dirty.get b) i))).emit [.markTileDirty b i]

/-- `dirty[b] <- dirty[b] \ {i}` (R84). -/
def State.unmarkTile (s : State) (b : Bank) (i : Nat) : State :=
  s.withDirty (s.dirty.set b (eraseTile (s.dirty.get b) i))

/-- Every tile of both banks marked, with its command (R135, R137). -/
def State.markAll (s : State) : State :=
  (s.withDirty ⟨allTiles s.cfg.layout, allTiles s.cfg.layout⟩).emit (markAllCommands s.cfg.layout)

end Sys2Proof.Machine
end

