-- ==== Sys2Proof/Machine/Operands.lean ====
section
/-! DEFINITION. Operand forms: address translation both ways (20_memory.md R34 to R37), the reductions of R8, the
shared operand checks of the draws (R100), and the platform's byte access (R31, R40). -/

namespace Sys2Proof.Machine

/-! Forward translation -/

/-- `bank_base(b)` (R34). -/
def bankBase (b : Bank) : Nat := b.num * 0x4000

/-- `attr_addr(b, i)` (R34, R35). -/
def attrAddr (lay : Layout) (b : Bank) (i : Nat) : Nat :=
  match lay with
  | .standard => bankBase b + 2 * i
  | .double => bankBase b + i

/-- `code_addr(b, i)` (R34, R35). -/
def codeAddr (lay : Layout) (b : Bank) (i : Nat) : Nat :=
  match lay with
  | .standard => bankBase b + 2 * i + 1
  | .double => bankBase b + i + 0x2000

/-- `rowtab_base(b)` (R37); meaningful in STANDARD layout only. -/
def rowtabBase (b : Bank) : Nat := bankBase b + 0x2000

/-- `rowscroll(b, j)` (R37): the entry zero-extended. For `j` of 0x100 to 0x1FF the read is flat (D15). -/
def State.rowScroll (s : State) (b : Bank) (j : Nat) : Int := (s.readVram (rowtabBase b + j)).toNat

/-! Reverse translation -/

/-- What owns a cell (R36). -/
inductive Region where
  | tile (b : Bank) (index : Nat)
  | rowScroll (b : Bank) (entry : Nat)
  | unassigned
  deriving DecidableEq, Repr

/-- `classify(a)` (R36) for a cell index below 0x8000. -/
def classify (lay : Layout) (a : Nat) : Region :=
  match lay with
  | .standard =>
    if a < 0x2000 then .tile .bg (a / 2)
    else if a < 0x2100 then .rowScroll .bg (a - 0x2000)
    else if a < 0x4000 then .unassigned
    else if a < 0x6000 then .tile .fg ((a - 0x4000) / 2)
    else if a < 0x6100 then .rowScroll .fg (a - 0x6000)
    else .unassigned
  | .double =>
    if a < 0x4000 then .tile .bg (a % 0x2000) else .tile .fg ((a - 0x4000) % 0x2000)

/-! Reductions of R8, Euclidean on negative integers (D10) -/

/-- `n mod 512` as an index. -/
def mod512 (n : Int) : Fin 512 := ⟨(n % 512).toNat, by omega⟩

/-- `n mod 256` as an index. -/
def mod256 (n : Int) : Fin 256 := ⟨(n % 256).toNat, by omega⟩

/-! Operand checks -/

/-- The tile operand check of R80 and R84. -/
def withTile (bank i : Nat) (s : State) (k : Bank → StepOutcome) : StepOutcome :=
  match bankOf bank with
  | none => raise .outOfRange
  | some b => if i < s.cfg.layout.nTiles then k b else raise .outOfRange

/-- The bank operand check of R72, R73, R95 and R96. -/
def withBank (bank : Nat) (k : Bank → StepOutcome) : StepOutcome :=
  match bankOf bank with
  | none => raise .outOfRange
  | some b => k b

/-- The check of R123. -/
def unlessRestorePending (s : State) (k : StepOutcome) : StepOutcome :=
  if s.needRestore then raise .restorePending else k

/-- The checks of R100, in the order of R124: the bank, then the pending restore. -/
def withDrawBank (bank : Nat) (s : State) (k : Bank → StepOutcome) : StepOutcome :=
  withBank bank (fun b => unlessRestorePending s (k b))

/-! Derived constants and the clip -/

/-- `align_dx[b]` (R19): the same constant for both banks. -/
def State.alignDx (s : State) (_ : Bank) : Int := s.cfg.xOffs

/-- `align_dy[b]` (R19). -/
def State.alignDy (s : State) (_ : Bank) : Int := s.cfg.yOffs

/-- An empty rectangle (R100). -/
def clipIsEmpty (c : Clip) : Bool := decide (c.maxX < c.minX) || decide (c.maxY < c.minY)

/-- `W`, the columns of the rectangle (R103). -/
def clipWidth (c : Clip) : Nat := (c.maxX - c.minX + 1).toNat

/-- The lines of the rectangle, top to bottom; none if it is empty (R103). -/
def clipLines (c : Clip) : List Int :=
  if clipIsEmpty c then [] else (List.range (c.maxY - c.minY + 1).toNat).map (fun (d : Nat) => c.minY + (d : Int))

/-! The platform side (R31, R40); no operation uses it -/

/-- The lane mask of platform byte address `byteAddr` of a window: BIG puts byte `2a` on bits 15:8. -/
def laneMask (order : ByteOrder) (byteAddr : Nat) : Word :=
  match order with
  | .big => if byteAddr % 2 = 0 then 0xFF00 else 0x00FF
  | .little => if byteAddr % 2 = 0 then 0x00FF else 0xFF00

/-- A byte-wide platform write of the VRAM window, as the masked halfword write the block sees (R40). -/
def platformByteWrite (order : ByteOrder) (byteAddr : Nat) (byte : BitVec 8) : Instr :=
  .vramWr (byteAddr / 2) (byte ++ byte) (laneMask order byteAddr)

end Sys2Proof.Machine
end

