-- ==== Sys2Proof/Machine/Flags.lean ====
section
/-! DEFINITION. The derived state: scroll caches and the flip flag (10_state.md R14, R15, R16). The block has no
condition codes and no status flag of arithmetic (R28). -/

namespace Sys2Proof.Machine

/-- `cache_x(r)` (R14). -/
def cacheX (r : Word) : Int := -(r.toNat : Int)

/-- `cache_y(r)` (R14). -/
def cacheY (yInvert : Bool) (r : Word) : Int := if yInvert then (r.toNat : Int) else -(r.toNat : Int)

/-- The FLIP bit of `ctrl[4]` (R15, R63). -/
def CtrlRegs.flipBit (c : CtrlRegs) : Bool := c.control.getLsbD 0

/-- The tuple `derived(ctrl)` of R16. -/
structure Derived where
  scrollx : PerBank Int
  scrolly : PerBank Int
  flip : Bool
  deriving DecidableEq, Repr

/-- `derived(ctrl)` (R16). -/
def derived (cfg : Config) (c : CtrlRegs) : Derived :=
  { scrollx := ⟨cacheX c.xscr0, cacheX c.xscr1⟩
    scrolly := ⟨cacheY cfg.yInvert c.yscr0, cacheY cfg.yInvert c.yscr1⟩
    flip := c.flipBit }

/-- The tuple a state holds. -/
def State.caches (s : State) : Derived := { scrollx := s.scrollx, scrolly := s.scrolly, flip := s.flip }

/-- `scrollx[b] <- cache_x(ctrl[b])` (R72). -/
def State.recomputeX (s : State) (b : Bank) : State :=
  s.withScrollx (s.scrollx.set b (cacheX (s.ctrl.get (xReg b))))

/-- `scrolly[b] <- cache_y(ctrl[2 + b])` (R73). -/
def State.recomputeY (s : State) (b : Bank) : State :=
  s.withScrolly (s.scrolly.set b (cacheY s.cfg.yInvert (s.ctrl.get (yReg b))))

/-- `flip <- ctrl[4][0]` and the two `SetFlip` commands (R74, R90). -/
def State.recomputeFlip (s : State) : State :=
  (s.withFlip s.ctrl.flipBit).emit
    [.setFlip .bg s.ctrl.flipBit s.ctrl.flipBit, .setFlip .fg s.ctrl.flipBit s.ctrl.flipBit]

end Sys2Proof.Machine
end

