-- ==== Sys2Proof/Machine/Bus.lean ====
section
/-! DEFINITION. The five bus operations (40_bus_operations.md R70 to R74). -/

namespace Sys2Proof.Machine

/-- VRAM_RD (R70). -/
def execVramRd (offset : Nat) (s : State) : StepOutcome :=
  if offset < vramCells then s.answer (.cell (s.readVram offset)) else raise .outOfRange

/-- VRAM_WR (R71). The mark depends on the region alone, not on the mask or the data (D38). -/
def execVramWr (offset : Nat) (data mask : Word) (s : State) : StepOutcome :=
  if offset < vramCells then
    match classify s.cfg.layout offset with
    | .tile b i => ((s.mergeVram offset data mask).markTile b i).done
    | .rowScroll _ _ => (s.mergeVram offset data mask).done
    | .unassigned => (s.mergeVram offset data mask).done
  else raise .outOfRange

/-- XSCR_WR (R72). -/
def execXscrWr (bank : Nat) (data mask : Word) (s : State) : StepOutcome :=
  withBank bank fun b => ((s.mergeCtrl (xReg b) data mask).recomputeX b).done

/-- YSCR_WR (R73). -/
def execYscrWr (bank : Nat) (data mask : Word) (s : State) : StepOutcome :=
  withBank bank fun b => ((s.mergeCtrl (yReg b) data mask).recomputeY b).done

/-- CTRL_WR (R74). -/
def execCtrlWr (offset : Nat) (data mask : Word) (s : State) : StepOutcome :=
  if offset < 1 then (s.mergeCtrl 4 data mask).recomputeFlip.done else raise .outOfRange

end Sys2Proof.Machine
end

