-- ==== Sys2Proof/Machine/Compositor.lean ====
section
/-! DEFINITION. The compositor (43_compositor.md R100 to R110). -/

namespace Sys2Proof.Machine

/-- DRAW (R101). -/
def execDraw (bank : Nat) (clip : Clip) (opaqueMode : Bool) (priority pmask : Nat) (s : State) : StepOutcome :=
  withDrawBank bank s fun b =>
    (s.emit [.draw b clip opaqueMode priority pmask (s.alignDx b) (s.alignDy b) s.flip]).done

/-- DRAW_OFS (R102): the perturbed offsets travel in the command and are stored nowhere. -/
def execDrawOfs (bank : Nat) (clip : Clip) (opaqueMode : Bool) (priority pmask : Nat) (extraDx extraDy : Int)
    (s : State) : StepOutcome :=
  withDrawBank bank s fun b =>
    (s.emit [.draw b clip opaqueMode priority pmask (s.alignDx b + extraDx) (s.alignDy b + extraDy) s.flip]).done

/-! The road-pixel remap (R110) -/

/-- The tunnel indicator: the top 11 bits of the line color all set (R65). -/
def isTunnel (lc : Word) : Bool := decide (lc &&& 0xFFE0 = 0xFFE0)

/-- `body`, with the additions of R110. -/
def roadBody (pixel lc : Word) : Word :=
  if isTunnel lc then (pixel &&& 0x7FF0) + 4 + 10
  else if lc.getLsbD 4 then (pixel &&& 0x7FF0) + 4 + 5
  else (pixel &&& 0x7FF0) + 4

/-- `edge`: one above `body` as it stands before any addition (D22 b). -/
def roadEdge (pixel lc : Word) : Word :=
  if isTunnel lc then (pixel &&& 0x7FF0) + 4 + 1 + 10
  else if lc.getLsbD 1 then (pixel &&& 0x7FF0) + 4 + 1 + 5
  else (pixel &&& 0x7FF0) + 4 + 1

/-- `p`: the pixel where it is not substituted, plus 10 in a tunnel line (D22 c, d). -/
def roadKeep (pixel lc : Word) : Word := if isTunnel lc then pixel + 10 else pixel

/-- `kind`, of the incoming pixel (D22 a). -/
def roadKind (pixel : Word) : Nat := (pixel.extractLsb' 0 4).toNat

/-- The remap of R110. -/
def roadPix (pixel lc : Word) : Word :=
  match roadKind pixel with
  | 1 => if lc.getLsbD 3 then roadBody pixel lc else roadKeep pixel lc
  | 2 => if lc.getLsbD 3 then roadBody pixel lc else roadKeep pixel lc
  | 3 => if lc.getLsbD 2 then roadBody pixel lc else roadKeep pixel lc
  | 4 => roadBody pixel lc
  | 5 => roadEdge pixel lc
  | _ => roadKeep pixel lc

/-- ROAD_PIX (R110). -/
def execRoadPix (pixel lineColor : Word) (s : State) : StepOutcome := s.answer (.pixel (roadPix pixel lineColor))

/-! The road-layer scanline pass -/

/-- Step 1, `src_row` (R104). -/
def State.srcRow (s : State) (b : Bank) (minY y : Int) : Fin 512 :=
  mod512 ((s.scrolly.get b + minY - s.alignDy b) + (y - minY))

/-- Step 2, `row_index` (R105). -/
def State.rowIndex (s : State) (b : Bank) (srcRow : Fin 512) : Fin 512 :=
  mod512 ((srcRow.val : Int) - s.scrolly.get b)

/-- Step 3, `cct_index` (R106). -/
def State.cctIndex (s : State) (b : Bank) (rowIndex : Fin 512) : Fin 256 :=
  mod256 ((rowIndex.val : Int) + s.alignDy b - 2)

/-- Step 4, `x_index` (R107). -/
def State.xIndex (s : State) (b : Bank) (rowIndex : Fin 512) : Int :=
  s.scrollx.get b + s.cfg.xOriginBias - s.alignDx b - s.rowScroll b rowIndex.val

/-- One element of a line (R107): the marker where a non-opaque draw finds no content, else the pixel, recolored
if the feature is enabled. -/
def State.lineElement (s : State) (opaqueMode : Bool) (planes : Planes) (lc : Word) (row col : Fin 512) : Word :=
  if !opaqueMode && !((planes.flag.get row).get col) then s.cfg.transparentMarker
  else if s.cfg.roadRecolor then roadPix ((planes.pix.get row).get col) lc
  else (planes.pix.get row).get col

/-- The buffer of one line (R107). -/
def State.lineBuffer (s : State) (b : Bank) (clip : Clip) (opaqueMode : Bool) (cct : ColorTable) (planes : Planes)
    (y : Int) : List Word :=
  let srcRow := s.srcRow b clip.minY y
  let rowIndex := s.rowIndex b srcRow
  let lc := cct.get (s.cctIndex b rowIndex)
  (List.range (clipWidth clip)).map fun (k : Nat) =>
    s.lineElement opaqueMode planes lc srcRow (mod512 (s.xIndex b rowIndex + (k : Int)))

/-- The records of DRAW_SPECIAL, one per clip line, top to bottom (R103, R108). -/
def State.scanlines (s : State) (b : Bank) (clip : Clip) (opaqueMode : Bool) (cct : ColorTable)
    (priority pmask : Nat) (planes : Planes) : List Command :=
  (clipLines clip).map fun y =>
    .scanline y (s.lineBuffer b clip opaqueMode cct planes y) (!opaqueMode) priority pmask

/-- DRAW_SPECIAL (R103). It reads the caches and the row-scroll table, not the latches and not `flip` (D24). -/
def execDrawSpecial (bank : Nat) (clip : Clip) (opaqueMode : Bool) (cct : ColorTable) (priority pmask : Nat)
    (planes : Planes) (s : State) : StepOutcome :=
  withDrawBank bank s fun b =>
    match s.cfg.layout with
    | .standard => (s.emit (s.scanlines b clip opaqueMode cct priority pmask planes)).done
    | .double => raise .noRowTable

end Sys2Proof.Machine
end

