-- ==== Sys2Proof/Machine/Scroll.lean ====
section
/-! DEFINITION. The scroll-table indexer (42_scroll_indexer.md R90 to R96). -/

namespace Sys2Proof.Machine

/-- RESTORE_SCROLL (R90). -/
def execRestoreScroll (s : State) : StepOutcome :=
  (((((s.recomputeX .bg).recomputeX .fg).recomputeY .bg).recomputeY .fg).recomputeFlip.withNeedRestore false).done

/-- `target_row(b, j)` (R93). -/
def State.targetRow (s : State) (b : Bank) (j : Nat) : Nat := (mod512 ((j : Int) + s.scrolly.get b)).val

/-- `value(b, j)` (R93), unreduced (D35). -/
def State.rowValue (s : State) (b : Bank) (j : Nat) : Int := s.scrollx.get b - s.rowScroll b j

/-- Step 2 of TMAP_UPDATE for one bank (R93). -/
def State.rowCommands (s : State) (b : Bank) : List Command :=
  (List.range 256).map fun j => .setScrollX b (s.targetRow b j) (s.rowValue b j)

/-- What TMAP_UPDATE emits, in order (R91, R92, R93, R94). -/
def State.tmapCommands (s : State) : List Command :=
  [.setScrollY .bg (s.scrolly.get .bg), .setScrollY .fg (s.scrolly.get .fg)] ++
    match s.cfg.layout with
    | .standard => s.rowCommands .bg ++ s.rowCommands .fg
    | .double => [.setScrollX .bg 0 (s.scrollx.get .bg), .setScrollX .fg 0 (s.scrollx.get .fg)]

/-- TMAP_UPDATE (R91). -/
def execTmapUpdate (s : State) : StepOutcome := unlessRestorePending s (s.emit s.tmapCommands).done

/-- SET_SCROLL (R95): the two caches only; `ctrl` and `Y_INVERT` play no part (D26, log 11). -/
def execSetScroll (bank : Nat) (x y : Int) (s : State) : StepOutcome :=
  withBank bank fun b => ((s.withScrollx (s.scrollx.set b (-x))).withScrolly (s.scrolly.set b y)).done

/-- SET_TPEN (R96). -/
def execSetTpen (bank pen : Nat) (s : State) : StepOutcome :=
  withBank bank fun b => ((s.withTpen (s.tpen.set b (some pen))).emit [.setTransparentPen b pen]).done

end Sys2Proof.Machine
end

