-- ==== Sys2Proof/Machine/System.lean ====
section
/-! DEFINITION. The lifecycle operations (70_reset_and_hazards.md R135, R136, R137). -/

namespace Sys2Proof.Machine

/-- RESET (R135). The configuration is not touched; the command stream goes on (log 5). -/
def execReset (s : State) : StepOutcome :=
  (((State.resetOf s.cfg).withInput s.input).withOut (s.out ++ resetCommands s.cfg.layout)).done

/-- STATE_SAVE (R136, R69). -/
def execStateSave (s : State) : StepOutcome := s.answer (.images s.vram.toImage s.ctrl.toImage)

/-- STATE_LOAD (R137): the caches, `flip` and `tpen` stay as they are, stale until RESTORE_SCROLL. -/
def execStateLoad (vramImage : VramImage) (ctrlImage : List Word) (s : State) : StepOutcome :=
  match CtrlRegs.ofImage ctrlImage with
  | none => raise .badImage
  | some regs =>
    if vramImage.length = vramCells then
      ((((s.withVram (Memory.ofCells vramImage.cells)).withCtrl regs).markAll).withNeedRestore true).done
    else raise .badImage

end Sys2Proof.Machine
end

