-- ==== Sys2Proof/Machine/Tile.lean ====
section
/-! DEFINITION. The tile decoder (41_tile_decoder.md R80 to R84). -/

namespace Sys2Proof.Machine

/-- The record of an attribute word and a code word (R60, R61, R67). The flip mapping is D12's (log 11). -/
def tileRecordOf (attr code : Word) : TileRecord :=
  { code := code.extractLsb' 0 14, color := attr.extractLsb' 0 9, flipx := attr.getLsbD 14, flipy := attr.getLsbD 15 }

/-- The decode of tile `i` of bank `b` from the current VRAM (R80, R81, R82). -/
def State.decodeTile (s : State) (b : Bank) (i : Nat) : TileRecord :=
  tileRecordOf (s.readVram (attrAddr s.cfg.layout b i)) (s.readVram (codeAddr s.cfg.layout b i))

/-- TILE_DEC (R80). -/
def execTileDec (bank i : Nat) (s : State) : StepOutcome :=
  withTile bank i s fun b => s.answer (.tile (s.decodeTile b i))

/-- BE_REDECODE (R84). -/
def execBeRedecode (bank i : Nat) (s : State) : StepOutcome :=
  withTile bank i s fun b => (s.unmarkTile b i).answer (.tile (s.decodeTile b i))

end Sys2Proof.Machine
end

