-- ==== Sys2Proof/Machine/Dispatch.lean ====
section
/-! DEFINITION. One arm per operation (30_encoding.md R57). -/

namespace Sys2Proof.Machine

def exec (i : Instr) (s : State) : Host.Outcome State Fault Refusal :=
  match i with
  | .vramRd offset => Sys2Proof.Machine.execVramRd offset s
  | .vramWr offset data mask => Sys2Proof.Machine.execVramWr offset data mask s
  | .xscrWr bank data mask => Sys2Proof.Machine.execXscrWr bank data mask s
  | .yscrWr bank data mask => Sys2Proof.Machine.execYscrWr bank data mask s
  | .ctrlWr offset data mask => Sys2Proof.Machine.execCtrlWr offset data mask s
  | .reset => Sys2Proof.Machine.execReset s
  | .stateSave => Sys2Proof.Machine.execStateSave s
  | .stateLoad vramImage ctrlImage => Sys2Proof.Machine.execStateLoad vramImage ctrlImage s
  | .restoreScroll => Sys2Proof.Machine.execRestoreScroll s
  | .tmapUpdate => Sys2Proof.Machine.execTmapUpdate s
  | .tileDec bank tile => Sys2Proof.Machine.execTileDec bank tile s
  | .beRedecode bank tile => Sys2Proof.Machine.execBeRedecode bank tile s
  | .setScroll bank x y => Sys2Proof.Machine.execSetScroll bank x y s
  | .setTpen bank pen => Sys2Proof.Machine.execSetTpen bank pen s
  | .draw bank clip opaqueMode priority pmask => Sys2Proof.Machine.execDraw bank clip opaqueMode priority pmask s
  | .drawOfs bank clip opaqueMode priority pmask extraDx extraDy => Sys2Proof.Machine.execDrawOfs bank clip opaqueMode priority pmask extraDx extraDy s
  | .drawSpecial bank clip opaqueMode cct priority pmask planes => Sys2Proof.Machine.execDrawSpecial bank clip opaqueMode cct priority pmask planes s
  | .roadPix pixel lineColor => Sys2Proof.Machine.execRoadPix pixel lineColor s

end Sys2Proof.Machine
end

