-- ==== Sys2Proof/Machine/Fetch.lean ====
section
/-! DEFINITION. How a transfer reaches the block: the queue of transfers not yet executed (60_exceptions.md R133,
log 4), and the fault a transfer that is no operation raises (30_encoding.md R55). -/

namespace Sys2Proof.Machine

/-- The ContractViolation a reserved transfer raises (R55, R121). -/
def faultOf : DecodeError → Fault
  | .outOfRange => .outOfRange
  | .noSuchOperation => .noSuchOperation

/-- The next transfer and the state without it; none when the environment has issued nothing. -/
def State.fetch (s : State) : Option (Packet × State) :=
  match s.input with
  | [] => none
  | p :: rest => some (p, s.withInput rest)

/-- The environment places a transfer so that it is the next one executed. -/
def State.place (s : State) (p : Packet) : State := s.withInput (p :: s.input)

end Sys2Proof.Machine
end

