-- ==== Sys2Proof/Machine/Step.lean ====
section
/-! DEFINITION. One step: the next transfer is taken, decoded and executed (10_state.md R27, 60_exceptions.md R133). -/

namespace Sys2Proof.Machine

/-- One operation delivered to the block. A reserved transfer raises ContractViolation (R55); an empty queue is the
end of the run, refused by name (log 4). -/
def step (s : State) : Host.Outcome State Fault Refusal :=
  match s.fetch with
  | none => .refused .noOperation
  | some (p, t) =>
    match decode p with
    | .ok i => exec i t
    | .error e => raise (faultOf e)

/-- `s` with the table word placed as the next transfer (log 4, log 14). -/
def State.withFetchWord (s : State) (nbits w : Nat) : State :=
  match packetOfTableWord nbits w with
  | some p => s.place p
  | none => s

end Sys2Proof.Machine
end

