-- ==== Sys2Proof/Machine/Assembly.lean ====
section
/-! DEFINITION. The textual form of an operation (30_encoding.md R58) and the pseudo-operations with their fixed
expansions (R59). -/

namespace Sys2Proof.Machine

/-- The eight pseudo-operations of R59. -/
inductive Pseudo where
  | vramWr16 (a : Nat) (v : Word)
  | vramWrHi (a : Nat) (byte : BitVec 8)
  | vramWrLo (a : Nat) (byte : BitVec 8)
  | xscrWr16 (bank : Nat) (v : Word)
  | yscrWr16 (bank : Nat) (v : Word)
  | ctrlWr16 (v : Word)
  | tileWr (bank i : Nat) (attr code : Word)
  | rowscrWr (bank j : Nat) (v : Word)
  deriving DecidableEq, Repr

/-- `VRAM_WR16 a, v` (R59). -/
def vramWrite16 (a : Nat) (v : Word) : Instr := .vramWr a v 0xFFFF

/-- The expansion under the configured layout (R59); none where R59 does not define one: a tile or bank out of range,
ROWSCR_WR in DOUBLE layout or beyond entry 255. -/
def expandPseudo (lay : Layout) : Pseudo → Option (List Instr)
  | .vramWr16 a v => some [vramWrite16 a v]
  | .vramWrHi a byte => some [.vramWr a (byte ++ 0#8) 0xFF00]
  | .vramWrLo a byte => some [.vramWr a (0#8 ++ byte) 0x00FF]
  | .xscrWr16 bank v => some [.xscrWr bank v 0xFFFF]
  | .yscrWr16 bank v => some [.yscrWr bank v 0xFFFF]
  | .ctrlWr16 v => some [.ctrlWr 0 v 0xFFFF]
  | .tileWr bank i attr code =>
    match bankOf bank with
    | some b =>
      if i < lay.nTiles then some [vramWrite16 (attrAddr lay b i) attr, vramWrite16 (codeAddr lay b i) code] else none
    | none => none
  | .rowscrWr bank j v =>
    match bankOf bank, lay with
    | some b, .standard => if j < 256 then some [vramWrite16 (rowtabBase b + j) v] else none
    | _, _ => none

/-- Operands in the order of R53 and R58, separated by commas. -/
def commaSeparated : List String → String
  | [] => ""
  | [a] => a
  | a :: rest => a ++ ", " ++ commaSeparated rest

/-- A hexadecimal digit, in capitals as the examples of R58 have it. -/
def hexDigit (d : Nat) : Char := (Nat.digitChar d).toUpper

/-- A hexadecimal number of `digits` digits (R58). -/
def hexText (digits n : Nat) : String :=
  "0x" ++ String.ofList ((List.range digits).map fun k => hexDigit (n / 16 ^ (digits - 1 - k) % 16))

/-- A clip rectangle as R58 writes it. -/
def clipText (c : Clip) : String :=
  "[" ++ toString c.minX ++ ".." ++ toString c.maxX ++ ", " ++ toString c.minY ++ ".." ++ toString c.maxY ++ "]"

/-- The draw flag as R58 writes it. -/
def opaqueText (opaqueMode : Bool) : String := if opaqueMode then "opaque" else "transp"

/-- The operands of an operation as text; a table or an image is a name bound in the surrounding text (R58). -/
def operandTexts (table image : String) : Instr → List String
  | .vramRd offset => [hexText 4 offset]
  | .vramWr offset data mask => [hexText 4 offset, hexText 4 data.toNat, hexText 4 mask.toNat]
  | .xscrWr bank data mask => [toString bank, hexText 4 data.toNat, hexText 4 mask.toNat]
  | .yscrWr bank data mask => [toString bank, hexText 4 data.toNat, hexText 4 mask.toNat]
  | .ctrlWr offset data mask => [toString offset, hexText 4 data.toNat, hexText 4 mask.toNat]
  | .reset => []
  | .stateSave => []
  | .stateLoad _ _ => [image]
  | .restoreScroll => []
  | .tmapUpdate => []
  | .tileDec bank i => [toString bank, toString i]
  | .beRedecode bank i => [toString bank, toString i]
  | .setScroll bank x y => [toString bank, toString x, toString y]
  | .setTpen bank pen => [toString bank, toString pen]
  | .draw bank clip opaqueMode priority pmask =>
    [toString bank, clipText clip, opaqueText opaqueMode, toString priority, toString pmask]
  | .drawOfs bank clip opaqueMode priority pmask extraDx extraDy =>
    [toString bank, clipText clip, opaqueText opaqueMode, toString priority, toString pmask, toString extraDx,
     toString extraDy]
  | .drawSpecial bank clip opaqueMode _ priority pmask _ =>
    [toString bank, clipText clip, opaqueText opaqueMode, table, toString priority, toString pmask]
  | .roadPix pixel lineColor => [hexText 4 pixel.toNat, hexText 4 lineColor.toNat]

/-- `MNEMONIC operand, operand, …` (R58). -/
def instrText (table image : String) (i : Instr) : String :=
  match operandTexts table image i with
  | [] => i.mnemonic
  | ops => i.mnemonic ++ " " ++ commaSeparated ops

end Sys2Proof.Machine
end

