-- ==== Sys2Proof/Safety.lean ====
section
/-! DEFINITION. What claims speak of: the legal states, the cache rule of R16, the causes of a fault (R121, R124), and
runs without a fault (R120, R133). -/

namespace Sys2Proof.Machine

/-- A dirty set in canonical form, holding tile indices of the layout only (R20). -/
def tilesWf (lay : Layout) (t : TileSet) : Bool :=
  decide (t.Pairwise (· < ·)) && t.all (fun i => decide (i < lay.nTiles))

/-- The scroll rows the backend has: 512 in STANDARD layout, row 0 alone in DOUBLE (R23, R94). -/
def scrollRows : Layout → Nat
  | .standard => 512
  | .double => 1

/-- Row latches in canonical form, of existing rows only (R23). -/
def rowsWf (lay : Layout) (m : RowLatches) : Bool :=
  decide (Ascending m) && m.all (fun p => decide (p.1 < scrollRows lay))

/-- The legal states. -/
structure State.Legal (s : State) : Prop where
  /-- The VRAM is in canonical form, all of it below 0x8000 (R10). -/
  vram : s.vram.wf = true
  /-- Only existing tiles are marked (R20). -/
  dirty : ∀ b, tilesWf s.cfg.layout (s.dirty.get b) = true
  /-- Only existing rows are latched (R23). -/
  rows : ∀ b, rowsWf s.cfg.layout (s.be.scrollX.get b) = true
  /-- Both banks' flip latches hold `flip`, in x and y alike (R15, R101). -/
  flipLatch : ∀ b, s.be.flip.get b = (s.flip, s.flip)
  /-- The pen latches hold `tpen` (R96). -/
  penLatch : ∀ b, s.be.tpen.get b = s.tpen.get b
  /-- `flip` is the FLIP bit of `ctrl[4]`, unless a restore is pending (R15, R16, R21). -/
  flipBit : s.needRestore = false → s.flip = s.ctrl.flipBit

/-- The cache rule of R16: caches and flip are `derived(ctrl)`. -/
def State.CachesMatch (s : State) : Prop := s.caches = derived s.cfg s.ctrl

/-- The first cause of a fault in the order of R124, from the table of R121; none where the operation completes. -/
def firstCause (i : Instr) (s : State) : Option Fault :=
  match i with
  | .vramRd offset => if offset < 0x8000 then none else some .outOfRange
  | .vramWr offset _ _ => if offset < 0x8000 then none else some .outOfRange
  | .xscrWr bank _ _ => if bank < 2 then none else some .outOfRange
  | .yscrWr bank _ _ => if bank < 2 then none else some .outOfRange
  | .ctrlWr offset _ _ => if offset < 1 then none else some .outOfRange
  | .reset => none
  | .stateSave => none
  | .stateLoad vramImage ctrlImage =>
    if vramImage.length = 0x8000 ∧ ctrlImage.length = 5 then none else some .badImage
  | .restoreScroll => none
  | .tmapUpdate => if s.needRestore then some .restorePending else none
  | .tileDec bank i => if bank < 2 ∧ i < s.cfg.layout.nTiles then none else some .outOfRange
  | .beRedecode bank i => if bank < 2 ∧ i < s.cfg.layout.nTiles then none else some .outOfRange
  | .setScroll bank _ _ => if bank < 2 then none else some .outOfRange
  | .setTpen bank _ => if bank < 2 then none else some .outOfRange
  | .draw bank _ _ _ _ =>
    if 2 ≤ bank then some .outOfRange else if s.needRestore then some .restorePending else none
  | .drawOfs bank _ _ _ _ _ _ =>
    if 2 ≤ bank then some .outOfRange else if s.needRestore then some .restorePending else none
  | .drawSpecial bank _ _ _ _ _ _ =>
    if 2 ≤ bank then some .outOfRange
    else if s.needRestore then some .restorePending
    else if s.cfg.layout = .double then some .noRowTable
    else none
  | .roadPix _ _ => none

/-- No operation of the next `n` raises ContractViolation: the run so far may be final (R120, R133). -/
def State.SafeFor (n : Nat) (s : State) : Prop := ∀ r, Sys2Proof.core.run n s ≠ .fault r

end Sys2Proof.Machine
end

