-- ==== Sys2Proof/Certificates/Slice0/Obligations.lean ====
section
/-! DEFINITION. The statements for the provers. A frame is written `t = { s with … }`: the fields named there are the
ones the statement speaks of one by one, every other field of the state is as it was. -/

open Sys2Proof Sys2Proof.Machine

/-! Bus operations -/

/-- R70: a read in range answers the cell and changes nothing but the answer; beyond the VRAM it is OutOfRange; what was
never written reads 0x0000. -/
def Obligations.VramReadReturnsTheCell : Prop :=
  ∀ (offset : Nat) (s : State),
    (offset < 0x8000 →
      exec (.vramRd offset) s = .next { s with result := some (.cell (s.readVram offset)) }) ∧
    (0x8000 ≤ offset → exec (.vramRd offset) s = .fault .outOfRange) ∧
    (∀ cfg, (State.resetOf cfg).readVram offset = 0)

/-- R71 (the covered tile is D13, the marks are a set by D32, the mark with no condition is D38; log 11): the masked
merge into one cell, every other cell as before; a tile cell marks its tile and no other and emits one MarkTileDirty,
whatever the mask and the data; another cell marks nothing and emits nothing; a read of the cell then answers the merge;
beyond the VRAM it is OutOfRange. -/
def Obligations.VramWriteMergesAndMarksItsTile : Prop :=
  ∀ (offset : Nat) (data mask : Word) (s : State),
    (offset < 0x8000 → ∃ t, exec (.vramWr offset data mask) s = .next t ∧
      t.readVram offset = ((s.readVram offset &&& ~~~mask) ||| (data &&& mask)) ∧
      (∀ a, a ≠ offset → t.readVram a = s.readVram a) ∧
      (∀ b i, classify s.cfg.layout offset = .tile b i →
        (∀ c j, t.isDirty c j ↔ s.isDirty c j ∨ (c = b ∧ j = i)) ∧ t.out = s.out ++ [.markTileDirty b i]) ∧
      ((∀ b i, classify s.cfg.layout offset ≠ .tile b i) → t.dirty = s.dirty ∧ t.out = s.out) ∧
      t = { s with vram := t.vram, dirty := t.dirty, out := t.out, result := none } ∧
      exec (.vramRd offset) t =
        .next { t with result := some (.cell ((s.readVram offset &&& ~~~mask) ||| (data &&& mask))) }) ∧
    (0x8000 ≤ offset → exec (.vramWr offset data mask) s = .fault .outOfRange)

/-- R75: the laws of the masked merge. -/
def Obligations.MaskedMergeLaws : Prop :=
  ∀ (o v m v' m' : Word),
    merge o v 0xFFFF = v ∧ merge o v 0 = o ∧
    (∀ k, (merge o v m).getLsbD k = if m.getLsbD k then v.getLsbD k else o.getLsbD k) ∧
    merge (merge o v m) v' m' = merge o (merge v v' m') (m ||| m') ∧
    merge (merge o v 0xFF00) v' 0x00FF = ((v &&& 0xFF00) ||| (v' &&& 0x00FF)) ∧
    merge (merge o v' 0x00FF) v 0xFF00 = ((v &&& 0xFF00) ||| (v' &&& 0x00FF))

/-- R72: XSCR_WR merges into the bank's x register, negates the merged register into the bank's x cache and changes
nothing else; a bank beyond 1 is OutOfRange. -/
def Obligations.XScrollWriteUpdatesRegisterAndCache : Prop :=
  ∀ (data mask : Word) (s : State),
    (∀ b : Bank, ∃ t, exec (.xscrWr b.num data mask) s = .next t ∧
      t.ctrl.get (xReg b) = ((s.ctrl.get (xReg b) &&& ~~~mask) ||| (data &&& mask)) ∧
      (∀ k, k ≠ xReg b → t.ctrl.get k = s.ctrl.get k) ∧
      t.scrollx.get b = -((t.ctrl.get (xReg b)).toNat : Int) ∧
      (∀ c, c ≠ b → t.scrollx.get c = s.scrollx.get c) ∧
      t = { s with ctrl := t.ctrl, scrollx := t.scrollx, result := none }) ∧
    (∀ bank, 2 ≤ bank → exec (.xscrWr bank data mask) s = .fault .outOfRange)

/-- R73: YSCR_WR likewise for the y register and the y cache, with the y-invert flag. -/
def Obligations.YScrollWriteUpdatesRegisterAndCache : Prop :=
  ∀ (data mask : Word) (s : State),
    (∀ b : Bank, ∃ t, exec (.yscrWr b.num data mask) s = .next t ∧
      t.ctrl.get (yReg b) = ((s.ctrl.get (yReg b) &&& ~~~mask) ||| (data &&& mask)) ∧
      (∀ k, k ≠ yReg b → t.ctrl.get k = s.ctrl.get k) ∧
      (s.cfg.yInvert = false → t.scrolly.get b = -((t.ctrl.get (yReg b)).toNat : Int)) ∧
      (s.cfg.yInvert = true → t.scrolly.get b = ((t.ctrl.get (yReg b)).toNat : Int)) ∧
      (∀ c, c ≠ b → t.scrolly.get c = s.scrolly.get c) ∧
      t = { s with ctrl := t.ctrl, scrolly := t.scrolly, result := none }) ∧
    (∀ bank, 2 ≤ bank → exec (.yscrWr bank data mask) s = .fault .outOfRange)

/-- R74: CTRL_WR merges into `ctrl[4]`, takes the flip flag from bit 0 of the merged register, sends it to both banks
in x and y, and changes nothing else; another offset than 0 is OutOfRange. -/
def Obligations.ControlWriteSetsFlipOfBothBanks : Prop :=
  ∀ (data mask : Word) (s : State),
    (∃ t, exec (.ctrlWr 0 data mask) s = .next t ∧
      t.ctrl.get 4 = ((s.ctrl.get 4 &&& ~~~mask) ||| (data &&& mask)) ∧
      (∀ k, k ≠ 4 → t.ctrl.get k = s.ctrl.get k) ∧
      t.flip = (t.ctrl.get 4).getLsbD 0 ∧
      t.out = s.out ++ [.setFlip .bg t.flip t.flip, .setFlip .fg t.flip t.flip] ∧
      (∀ b, t.be.flip.get b = (t.flip, t.flip)) ∧
      t = { s with ctrl := t.ctrl, flip := t.flip, out := t.out, be := ⟨s.be.scrollY, s.be.scrollX, t.be.flip, s.be.tpen⟩,
                   result := none }) ∧
    (∀ offset, 1 ≤ offset → exec (.ctrlWr offset data mask) s = .fault .outOfRange)

/-- R40 (D4): two byte-wide platform writes of one cell leave the first byte in the upper lane under BIG and in the
lower lane under LITTLE. -/
def Obligations.ByteWritesFillTheirLanes : Prop :=
  ∀ (a : Nat) (first second : BitVec 8) (s : State), a < 0x8000 →
    (∃ t u, exec (platformByteWrite .big (2 * a) first) s = .next t ∧
      exec (platformByteWrite .big (2 * a + 1) second) t = .next u ∧ u.readVram a = first ++ second) ∧
    (∃ t u, exec (platformByteWrite .little (2 * a) first) s = .next t ∧
      exec (platformByteWrite .little (2 * a + 1) second) t = .next u ∧ u.readVram a = second ++ first)

/-! Address translation -/

/-- R32, R33: which cells are tile cells, row-scroll cells and unassigned, bank by bank, in each layout. -/
def Obligations.RegionsFollowThePartitionTables : Prop :=
  ∀ a, a < 0x8000 →
    ((∃ i, classify .standard a = .tile .bg i) ↔ a < 0x2000) ∧
    ((∃ j, classify .standard a = .rowScroll .bg j) ↔ 0x2000 ≤ a ∧ a < 0x2100) ∧
    ((∃ i, classify .standard a = .tile .fg i) ↔ 0x4000 ≤ a ∧ a < 0x6000) ∧
    ((∃ j, classify .standard a = .rowScroll .fg j) ↔ 0x6000 ≤ a ∧ a < 0x6100) ∧
    (classify .standard a = .unassigned ↔ (0x2100 ≤ a ∧ a < 0x4000) ∨ 0x6100 ≤ a) ∧
    ((∃ i, classify .double a = .tile .bg i) ↔ a < 0x4000) ∧
    ((∃ i, classify .double a = .tile .fg i) ↔ 0x4000 ≤ a)

/-- R34, R35, R36: a cell is classified as tile `i` of bank `b` exactly if it is that tile's attribute or code cell, so
no cell belongs to two tiles or to tiles of both banks (R83 c); row-scroll entry `j` is the cell `rowtab_base + j`. -/
def Obligations.ClassifyInvertsTheTileAddresses : Prop :=
  ∀ (lay : Layout) (a : Nat), a < 0x8000 → ∀ b : Bank,
    (∀ i, classify lay a = .tile b i ↔ i < lay.nTiles ∧ (a = attrAddr lay b i ∨ a = codeAddr lay b i)) ∧
    (∀ j, classify lay a = .rowScroll b j ↔ lay = .standard ∧ j < 256 ∧ a = b.num * 0x4000 + 0x2000 + j)

/-- R47, R83 (b): a VRAM write that changes what a tile decodes to leaves that tile marked, and a write to another cell
than the tile's two leaves its record alone. -/
def Obligations.WritesThatChangeATileMarkIt : Prop :=
  ∀ (offset : Nat) (data mask : Word) (s t : State) (b : Bank) (i : Nat),
    exec (.vramWr offset data mask) s = .next t → i < s.cfg.layout.nTiles →
    (t.decodeTile b i ≠ s.decodeTile b i → t.isDirty b i ∧ t.out = s.out ++ [.markTileDirty b i]) ∧
    (offset ≠ attrAddr s.cfg.layout b i → offset ≠ codeAddr s.cfg.layout b i →
      t.decodeTile b i = s.decodeTile b i)

/-! Tile decoder -/

/-- R80, R81, R82: TILE_DEC reads the tile's two cells, at the addresses the layout gives, and changes nothing but the
answer. Which of attribute bits 14 and 15 is flip-x is the spec's decision D12 (log 11). -/
def Obligations.TileDecodeReadsItsTwoCells : Prop :=
  ∀ (b : Bank) (i : Nat) (s : State), i < s.cfg.layout.nTiles →
    ∃ attr code r,
      (s.cfg.layout = .standard → attr = s.readVram (b.num * 0x4000 + 2 * i) ∧
        code = s.readVram (b.num * 0x4000 + 2 * i + 1)) ∧
      (s.cfg.layout = .double → attr = s.readVram (b.num * 0x4000 + i) ∧
        code = s.readVram (b.num * 0x4000 + 0x2000 + i)) ∧
      r.code.toNat = (code &&& 0x3FFF).toNat ∧ r.color.toNat = (attr &&& 0x1FF).toNat ∧
      r.flipx = attr.getLsbD 14 ∧ r.flipy = attr.getLsbD 15 ∧
      exec (.tileDec b.num i) s = .next { s with result := some (.tile r) }

/-- R84 (the spec's decision D32): BE_REDECODE answers what TILE_DEC answers and removes the one mark. -/
def Obligations.RedecodeAnswersTheRecordAndClearsOneMark : Prop :=
  ∀ (b : Bank) (i : Nat) (s : State), i < s.cfg.layout.nTiles →
    ∃ t u, exec (.beRedecode b.num i) s = .next t ∧ exec (.tileDec b.num i) s = .next u ∧
      t.result = u.result ∧
      (∀ c j, t.isDirty c j ↔ s.isDirty c j ∧ ¬ (c = b ∧ j = i)) ∧
      t = { s with dirty := t.dirty, result := t.result }

/-- R59 (D3), R60, R61: the two writes TILE_WR stands for, and that the tile then decodes to the two words given while
every other cell is as before. -/
def Obligations.TileWriteSetsTheRecord : Prop :=
  ∀ (b : Bank) (i : Nat) (attr code : Word) (s : State), i < s.cfg.layout.nTiles →
    ∃ t u, expandPseudo s.cfg.layout (.tileWr b.num i attr code) =
        some [.vramWr (attrAddr s.cfg.layout b i) attr 0xFFFF, .vramWr (codeAddr s.cfg.layout b i) code 0xFFFF] ∧
      exec (.vramWr (attrAddr s.cfg.layout b i) attr 0xFFFF) s = .next t ∧
      exec (.vramWr (codeAddr s.cfg.layout b i) code 0xFFFF) t = .next u ∧
      u.decodeTile b i = tileRecordOf attr code ∧ u.isDirty b i ∧
      (∀ a, a ≠ attrAddr s.cfg.layout b i → a ≠ codeAddr s.cfg.layout b i → u.readVram a = s.readVram a)

/-! Scroll-table indexer -/

/-- R90 (that a restore can be pending is D29, log 11): RESTORE_SCROLL recomputes the four caches and the flip flag from
the five registers alone, sends the flip flag to both banks, where it is latched (R23), and clears the pending restore.
Every state with these registers and this configuration gets the same five, a state that follows the cache rule keeps
its own, and a second RESTORE_SCROLL only sends the flip flag again. -/
def Obligations.RestoreScrollRebuildsTheCaches : Prop :=
  ∀ s : State, ∃ t, exec .restoreScroll s = .next t ∧
    (∀ b, t.scrollx.get b = -((s.ctrl.get (xReg b)).toNat : Int)) ∧
    (s.cfg.yInvert = false → ∀ b, t.scrolly.get b = -((s.ctrl.get (yReg b)).toNat : Int)) ∧
    (s.cfg.yInvert = true → ∀ b, t.scrolly.get b = ((s.ctrl.get (yReg b)).toNat : Int)) ∧
    t.flip = (s.ctrl.get 4).getLsbD 0 ∧ t.needRestore = false ∧
    t.out = s.out ++ [.setFlip .bg t.flip t.flip, .setFlip .fg t.flip t.flip] ∧
    (∀ b, t.be.flip.get b = (t.flip, t.flip)) ∧
    t = { s with scrollx := t.scrollx, scrolly := t.scrolly, flip := t.flip, needRestore := false, out := t.out,
                 be := ⟨s.be.scrollY, s.be.scrollX, t.be.flip, s.be.tpen⟩, result := none } ∧
    (∀ u : State, u.cfg = s.cfg → u.ctrl = s.ctrl → ∃ v, exec .restoreScroll u = .next v ∧ v.caches = t.caches) ∧
    (s.CachesMatch → t.caches = s.caches) ∧
    exec .restoreScroll t =
      .next { t with out := t.out ++ [.setFlip .bg t.flip t.flip, .setFlip .fg t.flip t.flip] }

/-- R91, R92, R93, R146 in STANDARD layout: TMAP_UPDATE latches both y caches and, per bank, 256 rows starting at the
bank's y cache modulo 512, each with the x cache less its row-scroll entry; the other rows keep what they held; nothing
of the block itself changes. Euclidean remainder and zero-extension are D10 and D11. -/
def Obligations.TmapUpdateLatchesTheRowTable : Prop :=
  ∀ s : State, s.cfg.layout = .standard → s.needRestore = false →
    ∃ t, exec .tmapUpdate s = .next t ∧
      (∀ b, t.be.scrollY.get b = some (s.scrolly.get b)) ∧
      (∀ b (j : Nat), j < 256 → t.be.rowScroll b (((j : Int) + s.scrolly.get b) % 512).toNat =
        some (s.scrollx.get b - ((s.readVram (b.num * 0x4000 + 0x2000 + j)).toNat : Int))) ∧
      (∀ b (row : Nat), (∀ j : Nat, j < 256 → row ≠ (((j : Int) + s.scrolly.get b) % 512).toNat) →
        t.be.rowScroll b row = s.be.rowScroll b row) ∧
      t = { s with out := t.out, be := ⟨t.be.scrollY, t.be.scrollX, s.be.flip, s.be.tpen⟩,
                   result := none }

/-- R91, R92, R93: the commands TMAP_UPDATE emits in STANDARD layout, 514 of them, in order. -/
def Obligations.TmapUpdateEmitsInOrder : Prop :=
  ∀ s : State, s.cfg.layout = .standard → s.needRestore = false →
    ∃ t cs, exec .tmapUpdate s = .next t ∧ t.out = s.out ++ cs ∧ cs.length = 514 ∧
      cs[0]? = some (.setScrollY .bg (s.scrolly.get .bg)) ∧ cs[1]? = some (.setScrollY .fg (s.scrolly.get .fg)) ∧
      ∀ (b : Bank) (j : Nat), j < 256 → cs[2 + 256 * b.num + j]? =
        some (.setScrollX b (((j : Int) + s.scrolly.get b) % 512).toNat
          (s.scrollx.get b - ((s.readVram (b.num * 0x4000 + 0x2000 + j)).toNat : Int)))

/-- R91, R92, R94 in DOUBLE layout: one SetScrollX to row 0 per bank with the x cache as it stands, and no cell of the
VRAM plays a part. Row 0 is D25. -/
def Obligations.TmapUpdateDoubleIsUniform : Prop :=
  ∀ s : State, s.cfg.layout = .double → s.needRestore = false →
    ∃ t, exec .tmapUpdate s = .next t ∧
      t.out = s.out ++ [.setScrollY .bg (s.scrolly.get .bg), .setScrollY .fg (s.scrolly.get .fg),
        .setScrollX .bg 0 (s.scrollx.get .bg), .setScrollX .fg 0 (s.scrollx.get .fg)] ∧
      (∀ b, t.be.scrollY.get b = some (s.scrolly.get b)) ∧
      (∀ b row, t.be.rowScroll b row = if row = 0 then some (s.scrollx.get b) else s.be.rowScroll b row) ∧
      t = { s with out := t.out, be := ⟨t.be.scrollY, t.be.scrollX, s.be.flip, s.be.tpen⟩,
                   result := none }

/-- R95 (the spec's decision D26, log 11): SET_SCROLL overwrites the two caches of one bank and nothing else. -/
def Obligations.SetScrollOverridesOneBank : Prop :=
  ∀ (b : Bank) (x y : Int) (s : State), ∃ t, exec (.setScroll b.num x y) s = .next t ∧
    t.scrollx.get b = -x ∧ t.scrolly.get b = y ∧
    (∀ c, c ≠ b → t.scrollx.get c = s.scrollx.get c ∧ t.scrolly.get c = s.scrolly.get c) ∧
    t = { s with scrollx := t.scrollx, scrolly := t.scrolly, result := none }

/-- R145 (SET_SCROLL is D26, log 11): an override of the x cache does not outlive a write of the bank's x register,
whatever the mask, nor one of the y cache a write of the y register; the cache then is the merged register's. Neither
outlives RESTORE_SCROLL, whose two values writes with mask 0 give as well, and neither is in the save image. -/
def Obligations.ScrollOverrideIsLostOnRegisterWrite : Prop :=
  ∀ (b : Bank) (x y : Int) (dx mx dy my : Word) (s : State),
    ∃ t u v w p q, exec (.setScroll b.num x y) s = .next t ∧
      exec (.xscrWr b.num dx mx) t = .next u ∧ exec (.yscrWr b.num dy my) u = .next v ∧
      u.scrollx.get b = -(((s.ctrl.get (xReg b) &&& ~~~mx) ||| (dx &&& mx)).toNat : Int) ∧ u.scrolly.get b = y ∧
      v.scrollx.get b = u.scrollx.get b ∧
      (s.cfg.yInvert = false →
        v.scrolly.get b = -(((s.ctrl.get (yReg b) &&& ~~~my) ||| (dy &&& my)).toNat : Int)) ∧
      (s.cfg.yInvert = true →
        v.scrolly.get b = (((s.ctrl.get (yReg b) &&& ~~~my) ||| (dy &&& my)).toNat : Int)) ∧
      exec .restoreScroll t = .next w ∧ w.caches = derived s.cfg s.ctrl ∧
      (mx = 0 → my = 0 → v.ctrl = s.ctrl ∧
        v.scrollx.get b = w.scrollx.get b ∧ v.scrolly.get b = w.scrolly.get b) ∧
      exec .stateSave s = .next p ∧ exec .stateSave t = .next q ∧ q.result = p.result

/-- R96 (D27): SET_TPEN records the pen of one bank and sends it to the backend. -/
def Obligations.SetTpenRecordsAndForwards : Prop :=
  ∀ (b : Bank) (pen : Nat) (s : State), ∃ t, exec (.setTpen b.num pen) s = .next t ∧
    (∀ c, t.tpen.get c = if c = b then some pen else s.tpen.get c) ∧
    (∀ c, t.be.tpen.get c = if c = b then some pen else s.be.tpen.get c) ∧
    t = { s with tpen := t.tpen, out := s.out ++ [.setTransparentPen b pen],
                 be := ⟨s.be.scrollY, s.be.scrollX, s.be.flip, t.be.tpen⟩, result := none }

/-! Compositor -/

/-- R101 and R102 (the `dx`, `dy` fields are D28): DRAW and DRAW_OFS emit one Draw record, the second with the offsets
added to; nothing else changes, so a DRAW after a DRAW_OFS carries the configured offsets again. -/
def Obligations.DrawsEmitOneRecord : Prop :=
  ∀ (b : Bank) (clip : Clip) (o : Bool) (priority pmask : Nat) (ex ey : Int) (s : State), s.needRestore = false →
    exec (.draw b.num clip o priority pmask) s =
      .next { s with out := s.out ++ [.draw b clip o priority pmask s.cfg.xOffs s.cfg.yOffs s.flip],
                     result := none } ∧
    ∃ t, exec (.drawOfs b.num clip o priority pmask ex ey) s = .next t ∧
      t = { s with out := s.out ++ [.draw b clip o priority pmask (s.cfg.xOffs + ex) (s.cfg.yOffs + ey) s.flip],
                   result := none } ∧
      exec (.draw b.num clip o priority pmask) t =
        .next { t with out := t.out ++ [.draw b clip o priority pmask s.cfg.xOffs s.cfg.yOffs s.flip],
                       result := none }

/-- R103 to R109: what DRAW_SPECIAL emits in STANDARD layout, line by line and column by column in the closed form of
R109, and that nothing else changes. The start values, the increment and the color index are D16 to D19 (log 11), the
reading of an empty clip is log 13. -/
def Obligations.DrawSpecialEmitsTheClosedForm : Prop :=
  ∀ (b : Bank) (clip : Clip) (o : Bool) (cct : ColorTable) (priority pmask : Nat) (planes : Planes) (s : State),
    s.needRestore = false → s.cfg.layout = .standard →
    ∃ cs, exec (.drawSpecial b.num clip o cct priority pmask planes) s =
        .next { s with out := s.out ++ cs, result := none } ∧
      (cs.length = if clip.maxX < clip.minX ∨ clip.maxY < clip.minY then 0
        else (clip.maxY - clip.minY + 1).toNat) ∧
      ∀ d, d < cs.length → ∃ buf y, y = clip.minY + (d : Int) ∧
        cs[d]? = some (.scanline y buf (!o) priority pmask) ∧
        buf.length = (clip.maxX - clip.minX + 1).toNat ∧
        ∀ k, k < buf.length → ∃ row col lc p,
          row = mod512 (s.scrolly.get b + y - s.cfg.yOffs) ∧
          col = mod512 (s.scrollx.get b + s.cfg.xOriginBias - s.cfg.xOffs -
            ((s.readVram (b.num * 0x4000 + 0x2000 + ((y - s.cfg.yOffs) % 512).toNat)).toNat : Int) + (k : Int)) ∧
          lc = cct.get (mod256 (y - 2)) ∧ p = (planes.pix.get row).get col ∧
          buf[k]? = some (
            if o = false ∧ (planes.flag.get row).get col = false then s.cfg.transparentMarker
            else if s.cfg.roadRecolor = true then roadPix p lc else p)

/-- R103, R112: what DRAW_SPECIAL emits depends on the configuration, the caches, the VRAM and its operands alone: not
on the screen flip (D24), the backend latches, the registers, the pens or the dirty marks. -/
def Obligations.DrawSpecialReadsOnlyCachesAndVram : Prop :=
  ∀ (bank : Nat) (clip : Clip) (o : Bool) (cct : ColorTable) (priority pmask : Nat) (planes : Planes)
    (s s' t t' : State),
    s'.cfg = s.cfg → (∀ a, s'.readVram a = s.readVram a) → s'.scrollx = s.scrollx → s'.scrolly = s.scrolly →
    exec (.drawSpecial bank clip o cct priority pmask planes) s = .next t →
    exec (.drawSpecial bank clip o cct priority pmask planes) s' = .next t' →
    ∃ cs, t.out = s.out ++ cs ∧ t'.out = s'.out ++ cs

/-- R101, R143: what DRAW and DRAW_OFS emit depends on the configuration, the flip flag and the operands alone: not on
the caches, the registers or the VRAM. -/
def Obligations.DrawReadsOnlyFlipAndOffsets : Prop :=
  ∀ (bank : Nat) (clip : Clip) (o : Bool) (priority pmask : Nat) (ex ey : Int) (s s' t t' u u' : State),
    s'.cfg = s.cfg → s'.flip = s.flip →
    exec (.draw bank clip o priority pmask) s = .next t → exec (.draw bank clip o priority pmask) s' = .next t' →
    exec (.drawOfs bank clip o priority pmask ex ey) s = .next u →
    exec (.drawOfs bank clip o priority pmask ex ey) s' = .next u' →
    (∃ cs, t.out = s.out ++ cs ∧ t'.out = s'.out ++ cs) ∧ (∃ cs, u.out = s.out ++ cs ∧ u'.out = s'.out ++ cs)

/-- R110 by the table of R111 (the three readings are D22): ROAD_PIX of every pixel and line color, and that nothing
but the answer changes. `base` is the pixel with its low nibble and bit 15 cleared. -/
def Obligations.RoadPixFollowsTheTable : Prop :=
  ∀ (pixel lc : Word) (s : State), ∃ r, exec (.roadPix pixel lc) s = .next { s with result := some (.pixel r) } ∧
    ∀ base keep body edge : Word,
      base = (pixel &&& 0x7FF0) →
      keep = (if lc &&& 0xFFE0 = 0xFFE0 then pixel + 10 else pixel) →
      body = (if lc &&& 0xFFE0 = 0xFFE0 then base + 14 else if lc.getLsbD 4 then base + 9 else base + 4) →
      edge = (if lc &&& 0xFFE0 = 0xFFE0 then base + 15 else if lc.getLsbD 1 then base + 10 else base + 5) →
      ((pixel.toNat % 16 = 1 ∨ pixel.toNat % 16 = 2) → r = if lc.getLsbD 3 then body else keep) ∧
      (pixel.toNat % 16 = 3 → r = if lc.getLsbD 2 then body else keep) ∧
      (pixel.toNat % 16 = 4 → r = body) ∧
      (pixel.toNat % 16 = 5 → r = edge) ∧
      ((pixel.toNat % 16 = 0 ∨ 6 ≤ pixel.toNat % 16) → r = keep)

/-- R111, its consequences: a road surface or off-road pixel keeps its base field and loses bit 15, bit 0 of the line
color never matters, and in a tunnel line bits 4 and 1 never matter. -/
def Obligations.RoadPixKeepsTheBaseField : Prop :=
  ∀ (pixel lc : Word),
    ((pixel.toNat % 16 = 4 ∨ pixel.toNat % 16 = 5) →
      (roadPix pixel lc).getLsbD 15 = false ∧
        (roadPix pixel lc).extractLsb' 4 11 = pixel.extractLsb' 4 11) ∧
    roadPix pixel (lc ^^^ 1) = roadPix pixel lc ∧
    (lc &&& 0xFFE0 = 0xFFE0 → roadPix pixel (lc ^^^ 0x10) = roadPix pixel lc ∧
      roadPix pixel (lc ^^^ 0x2) = roadPix pixel lc)

/-! Lifecycle -/

/-- R135, R29: RESET from every state. The zero registers, the unwritten pens and the marks are the spec's decisions D8
and D33; that transfers waiting and commands already emitted stay is the model's choice (log 4, log 5). -/
def Obligations.ResetLeavesTheResetState : Prop :=
  ∀ s : State, ∃ t, exec .reset s = .next t ∧
    t.cfg = s.cfg ∧ (∀ a, t.readVram a = 0) ∧ (∀ k, t.ctrl.get k = 0) ∧
    (∀ b, t.scrollx.get b = 0 ∧ t.scrolly.get b = 0 ∧ t.tpen.get b = none) ∧ t.flip = false ∧
    (∀ b i, t.isDirty b i ↔ i < s.cfg.layout.nTiles) ∧ t.needRestore = false ∧
    (∀ b, t.be.flip.get b = (false, false) ∧ t.be.scrollY.get b = none ∧ t.be.tpen.get b = none) ∧
    (∀ b row, t.be.rowScroll b row = none) ∧
    (∃ cs, t.out = s.out ++ cs ++ [.setFlip .bg false false, .setFlip .fg false false] ∧
      ∀ c, c ∈ cs ↔ ∃ b i, i < s.cfg.layout.nTiles ∧ c = .markTileDirty b i) ∧
    t.result = none ∧ t.input = s.input

/-- R29, R135: the state after reset is the one RESET makes, for every configuration the block can be built with. -/
def Obligations.ResetStateIsAFixedPointOfReset : Prop :=
  ∀ cfg : Config, exec .reset (State.resetOf cfg) =
    .next { State.resetOf cfg with out := (State.resetOf cfg).out ++ (State.resetOf cfg).out }

/-- R136: STATE_SAVE answers the 32768 cells and the five registers in index order and changes nothing but the
answer. -/
def Obligations.StateSaveAnswersBothArrays : Prop :=
  ∀ s : State, ∃ img regs, exec .stateSave s = .next { s with result := some (.images img regs) } ∧
    img.length = 0x8000 ∧ (∀ k, k < 0x8000 → imageWord img k = s.readVram k) ∧
    regs.length = 5 ∧ ∀ k : Fin 5, regs[k.val]? = some (s.ctrl.get k)

/-- R137: STATE_LOAD replaces both arrays, marks every tile with its command, sets the pending restore and leaves the
caches, the flip flag, the pens and the latches as they were. The marks are D33, the pending restore D29. -/
def Obligations.StateLoadReplacesBothArrays : Prop :=
  ∀ (img : VramImage) (regs : List Word) (s : State), img.length = 0x8000 → regs.length = 5 →
    ∃ t, exec (.stateLoad img regs) s = .next t ∧
      (∀ k, k < 0x8000 → t.readVram k = imageWord img k) ∧ (∀ k : Fin 5, regs[k.val]? = some (t.ctrl.get k)) ∧
      (∀ b i, t.isDirty b i ↔ i < s.cfg.layout.nTiles) ∧ t.needRestore = true ∧
      (∃ cs, t.out = s.out ++ cs ∧ ∀ c, c ∈ cs ↔ ∃ b i, i < s.cfg.layout.nTiles ∧ c = .markTileDirty b i) ∧
      t = { s with vram := t.vram, ctrl := t.ctrl, dirty := t.dirty, needRestore := true, out := t.out,
                   result := none }

/-- S4, R90: save, reload into any block of the same configuration, RESTORE_SCROLL: VRAM and registers are those of the
save, and so are the caches and the flip flag if they followed the registers then. -/
def Obligations.SaveLoadRestoreRoundTrip : Prop :=
  ∀ (s u : State), s.vram.wf = true → u.cfg = s.cfg →
    ∃ img regs t v w, exec .stateSave s = .next t ∧ t.result = some (.images img regs) ∧
      exec (.stateLoad img regs) u = .next v ∧ exec .restoreScroll v = .next w ∧
      w.vram = s.vram ∧ w.ctrl = s.ctrl ∧ w.needRestore = false ∧ w.CachesMatch ∧
      (s.CachesMatch → w.scrollx = s.scrollx ∧ w.scrolly = s.scrolly ∧ w.flip = s.flip)

/-! Faults -/

/-- R121, R124: every operation completes, except for the causes of the table of R121, and then it ends with the first
of them in the order of R124. -/
def Obligations.OperationsFaultExactlyForTheListedCauses : Prop :=
  ∀ (i : Instr) (s : State),
    (firstCause i s = none → ∃ t, exec i s = .next t) ∧
    (∀ r, firstCause i s = some r → exec i s = .fault r)

/-- R123 (D29): while a restore is pending, TMAP_UPDATE and the draws of an existing bank end with RestorePending. -/
def Obligations.NoDrawWhileARestoreIsPending : Prop :=
  ∀ (b : Bank) (clip : Clip) (o : Bool) (cct : ColorTable) (priority pmask : Nat) (planes : Planes) (ex ey : Int)
    (s : State), s.needRestore = true →
    exec .tmapUpdate s = .fault .restorePending ∧
    exec (.draw b.num clip o priority pmask) s = .fault .restorePending ∧
    exec (.drawOfs b.num clip o priority pmask ex ey) s = .fault .restorePending ∧
    exec (.drawSpecial b.num clip o cct priority pmask planes) s = .fault .restorePending

/-- R76, R121: whatever the state, bus words of the opcode table never raise ContractViolation. -/
def Obligations.BusTrafficNeverFaults : Prop :=
  ∀ (n : Nat) (s : State), (∀ p ∈ s.input, ∃ row ∈ btRows, row.covers p = true) → s.SafeFor n

/-! Whole-machine rules -/

/-- R17: no step changes the configuration. -/
def Obligations.ConfigurationNeverChanges : Prop :=
  ∀ s t : State, step s = .next t → t.cfg = s.cfg

/-- R78: only VRAM_WR, STATE_LOAD and RESET write the VRAM; only the register writes, STATE_LOAD and RESET write the
registers. -/
def Obligations.OnlyTheseWriteVramAndRegisters : Prop :=
  ∀ (i : Instr) (s t : State), exec i s = .next t →
    ((∃ a, t.readVram a ≠ s.readVram a) →
      (∃ o d m, i = .vramWr o d m) ∨ (∃ g r, i = .stateLoad g r) ∨ i = .reset) ∧
    (t.ctrl ≠ s.ctrl →
      (∃ b d m, i = .xscrWr b d m) ∨ (∃ b d m, i = .yscrWr b d m) ∨ (∃ o d m, i = .ctrlWr o d m) ∨
        (∃ g r, i = .stateLoad g r) ∨ i = .reset)

/-- R14, R15, R18: which operations write the caches, the flip flag and the pens. -/
def Obligations.OnlyTheseWriteCachesFlipAndPens : Prop :=
  ∀ (i : Instr) (s t : State), exec i s = .next t →
    (t.scrollx ≠ s.scrollx →
      (∃ b d m, i = .xscrWr b d m) ∨ i = .restoreScroll ∨ (∃ b x y, i = .setScroll b x y) ∨ i = .reset) ∧
    (t.scrolly ≠ s.scrolly →
      (∃ b d m, i = .yscrWr b d m) ∨ i = .restoreScroll ∨ (∃ b x y, i = .setScroll b x y) ∨ i = .reset) ∧
    (t.flip ≠ s.flip → (∃ o d m, i = .ctrlWr o d m) ∨ i = .restoreScroll ∨ i = .reset) ∧
    (t.tpen ≠ s.tpen → (∃ b p, i = .setTpen b p) ∨ i = .reset)

/-- R21 (D29): STATE_LOAD sets the pending restore, RESTORE_SCROLL and RESET clear it, nothing else touches it. -/
def Obligations.OnlyLoadSetsThePendingRestore : Prop :=
  ∀ (i : Instr) (s t : State), exec i s = .next t →
    ((∃ g r, i = .stateLoad g r) → t.needRestore = true) ∧
    ((i = .restoreScroll ∨ i = .reset) → t.needRestore = false) ∧
    ((∀ g r, i ≠ .stateLoad g r) → i ≠ .restoreScroll → i ≠ .reset → t.needRestore = s.needRestore)

/-- R20 (D32): a mark goes away by the BE_REDECODE of its own tile only. -/
def Obligations.MarksGoOnlyByRedecode : Prop :=
  ∀ (i : Instr) (s t : State) (b : Bank) (j : Nat), exec i s = .next t → j < s.cfg.layout.nTiles →
    s.isDirty b j → ¬ t.isDirty b j → i = .beRedecode b.num j

/-- R22, R23: commands are only ever added to the stream, and but for RESET the latches change by the added commands
alone. -/
def Obligations.LatchesFollowTheCommands : Prop :=
  ∀ (i : Instr) (s t : State), exec i s = .next t →
    ∃ cs, t.out = s.out ++ cs ∧ (i ≠ .reset → t.be = cs.foldl Backend.apply s.be)

/-- R45, R91: TMAP_UPDATE is the one publication point of scroll: but for it and RESET no operation changes a scroll
latch. -/
def Obligations.OnlyTmapUpdatePublishesScroll : Prop :=
  ∀ (i : Instr) (s t : State), exec i s = .next t → i ≠ .tmapUpdate → i ≠ .reset →
    (∀ b, t.be.scrollY.get b = s.be.scrollY.get b) ∧ (∀ b row, t.be.rowScroll b row = s.be.rowScroll b row)

/-- R16: the cache rule holds after RESET and after RESTORE_SCROLL, and every operation but SET_SCROLL and STATE_LOAD
keeps it. -/
def Obligations.CacheRuleIsKept : Prop :=
  ∀ (i : Instr) (s t : State), exec i s = .next t →
    ((i = .reset ∨ i = .restoreScroll) → t.CachesMatch) ∧
    ((∀ b x y, i ≠ .setScroll b x y) → (∀ g r, i ≠ .stateLoad g r) → s.CachesMatch → t.CachesMatch)

/-- Every step keeps the legal states: canonical VRAM, marks and latches of existing tiles and rows, flip and pen
latches that hold what the block holds, and a flip flag that is the FLIP bit unless a restore is pending (R10, R15,
R20, R23, R96, R101). -/
def Obligations.StepKeepsLegalStates : Prop :=
  ∀ s t : State, s.Legal → step s = .next t → t.Legal

/-- The state after reset is legal and follows the cache rule, for every configuration (R16, R29). -/
def Obligations.ResetStateIsLegal : Prop :=
  ∀ cfg : Config, (State.resetOf cfg).Legal ∧ (State.resetOf cfg).CachesMatch

/-! Encoding and the step -/

/-- Decode after encode is the identity on every operation whose operands the encoding admits, in either layout. -/
def Obligations.DecodeAfterEncodeIsIdentity : Prop :=
  ∀ (lay : Layout) (i : Instr), i.wf lay = true → decode (encode i) = .ok i

/-- R51, R52 (the format is D1): a BT word decodes to an operation exactly if a row of the table of R52 matches it;
that row is the operation's own and the only one. A write is the operation's encoding. A read is of the cell in the
OFFSET field whatever MASK and DATA are (R55: they are ignored), and is the encoding once those two are cleared. -/
def Obligations.BusWordsDecodeByTheTable : Prop :=
  ∀ w : BitVec 50,
    (∀ i, decode (.bt w) = .ok i →
      (∃ row ∈ btRows, row.mnemonic = i.mnemonic ∧ row.covers (.bt w) = true ∧
        ∀ row' ∈ btRows, row'.covers (.bt w) = true → row' = row) ∧
      ((∀ o, i ≠ .vramRd o) → encode i = .bt w) ∧
      (∀ o, i = .vramRd o →
        o = (w.extractLsb' 32 15).toNat ∧ encode i = .bt (w &&& 0x3FFFF00000000))) ∧
    ((∃ e, decode (.bt w) = .error e) ↔ ∀ row ∈ btRows, row.covers (.bt w) = false)

/-- R55, R121 (D1, D2, D6): the reserved transfers and their reasons, as the step answers them. -/
def Obligations.ReservedTransfersFault : Prop :=
  ∀ (s : State) (rest : List Packet),
    (∀ w : BitVec 50, s.input = .bt w :: rest → btRw w = 0 → btWin w ≠ 0 → step s = .fault .noSuchOperation) ∧
    (∀ w : BitVec 50, s.input = .bt w :: rest → btRw w = 1 → (btWin w = 1 ∨ btWin w = 2) → 2 ≤ btOffset w →
      step s = .fault .outOfRange) ∧
    (∀ w : BitVec 50, s.input = .bt w :: rest → btRw w = 1 → btWin w = 3 → 1 ≤ btOffset w →
      step s = .fault .outOfRange) ∧
    (∀ (sel : BitVec 4) (r : SbRecord), s.input = .sb sel r :: rest → 13 ≤ sel.toNat →
      step s = .fault .noSuchOperation)

/-- A step takes the next transfer out of the queue and, where it decodes to an operation, is that operation on the
state without the transfer. With no transfer it refuses by name (log 4, the model's choice). -/
def Obligations.StepRunsTheNextTransfer : Prop :=
  ∀ (s : State),
    (∀ p rest i, s.input = p :: rest → decode p = .ok i → step s = exec i { s with input := rest }) ∧
    (s.input = [] → step s = .refused .noOperation)

/-- Words of 95_test_vectors.md sections 2, 7 and 8 decode to the operations they stand for (D1, D2). -/
def Obligations.KnownWordsDecode : Prop :=
  decode (.bt 0x20123FFFFBEEF) = .ok (.vramWr 0x0123 0xBEEF 0xFFFF) ∧
  decode (.bt 0x0012300000000) = .ok (.vramRd 0x0123) ∧
  decode (.bt 0x28001FFFF0010) = .ok (.xscrWr 1 0x0010 0xFFFF) ∧
  decode (.bt 0x30000FFFF0005) = .ok (.yscrWr 0 0x0005 0xFFFF) ∧
  decode (.bt 0x3800000FF0001) = .ok (.ctrlWr 0 0x0001 0x00FF) ∧
  decode (.sb 0x3 .zero) = .ok .restoreScroll ∧
  decode (.bt 0x28002FFFF0000) = .error .outOfRange ∧
  decode (.bt 0x0800000000000) = .error .noSuchOperation
end

