-- ==== Sys2Proof/Laws/Memory.lean ====
section
/-! SUPPORT. The laws of the sparse lists, of the VRAM and of the dirty sets: read after write, canonical form. -/

namespace Sys2Proof.Machine

/-! Sparse lists -/

@[simp] theorem findAt_insertAt {α : Type} (m : List (Nat × α)) (a b : Nat) (v : α) :
    findAt (insertAt m a v) b = if a = b then some v else findAt m b := by
  induction m with
  | nil => rfl
  | cons p m ih =>
    obtain ⟨k, w⟩ := p
    by_cases hlt : a < k
    · simp [insertAt, hlt, findAt]
    · by_cases heq : a = k
      · subst heq
        by_cases hb : a = b <;> simp [insertAt, findAt, hb]
      · simp only [insertAt, hlt, heq, if_false, findAt, ih]
        by_cases hk : k = b
        · have hab : a ≠ b := by omega
          simp [hk, hab]
        · simp [hk]

@[simp] theorem findAt_eraseAt {α : Type} (m : List (Nat × α)) (a b : Nat) :
    findAt (eraseAt m a) b = if a = b then none else findAt m b := by
  induction m with
  | nil => simp [eraseAt, findAt]
  | cons p m ih =>
    obtain ⟨k, w⟩ := p
    by_cases hk : k = a
    · subst hk
      have h : eraseAt ((k, w) :: m) k = eraseAt m k := by simp [eraseAt]
      rw [h, ih]
      by_cases hb : k = b <;> simp [findAt, hb]
    · have h : eraseAt ((k, w) :: m) a = (k, w) :: eraseAt m a := by simp [eraseAt, hk]
      rw [h]
      simp only [findAt, ih]
      by_cases hb : k = b
      · have hab : a ≠ b := by omega
        simp [hb, hab]
      · simp [hb]

theorem mem_insertAt {α : Type} {m : List (Nat × α)} {a : Nat} {v : α} {p : Nat × α}
    (h : p ∈ insertAt m a v) : p = (a, v) ∨ p ∈ m := by
  induction m with
  | nil => simpa [insertAt] using h
  | cons q m ih =>
    obtain ⟨k, w⟩ := q
    unfold insertAt at h
    split at h
    · simpa using h
    · split at h
      · rcases List.mem_cons.1 h with h | h
        · exact .inl h
        · exact .inr (List.mem_cons_of_mem _ h)
      · rcases List.mem_cons.1 h with h | h
        · exact .inr (h ▸ List.mem_cons_self ..)
        · exact (ih h).imp id (List.mem_cons_of_mem _)

theorem ascending_insertAt {α : Type} {m : List (Nat × α)} (h : Ascending m) (a : Nat) (v : α) :
    Ascending (insertAt m a v) := by
  induction m with
  | nil => simp [insertAt]
  | cons q m ih =>
    obtain ⟨k, w⟩ := q
    obtain ⟨hk, hm⟩ := List.pairwise_cons.1 h
    unfold insertAt
    split
    · refine List.pairwise_cons.2 ⟨fun p hp => ?_, h⟩
      rcases List.mem_cons.1 hp with rfl | hp
      · assumption
      · have := hk p hp; simp only at this ⊢; omega
    · split
      · next heq => subst heq; exact List.pairwise_cons.2 ⟨hk, hm⟩
      · refine List.pairwise_cons.2 ⟨fun p hp => ?_, ih hm⟩
        rcases mem_insertAt hp with rfl | hp
        · simp only; omega
        · exact hk p hp

theorem ascending_eraseAt {α : Type} {m : List (Nat × α)} (h : Ascending m) (a : Nat) : Ascending (eraseAt m a) :=
  List.Pairwise.filter _ h

/-! The VRAM -/

theorem Memory.wf_iff (m : Memory) :
    m.wf = true ↔ Ascending m ∧ ∀ p ∈ m, p.1 < vramCells ∧ p.2 ≠ 0 := by
  simp only [Memory.wf, Bool.and_eq_true, decide_eq_true_eq, List.all_eq_true]

@[simp] theorem Memory.read_nil (a : Nat) : Memory.read [] a = 0 := rfl

/-- A read after a write (R8): the written cell holds the value, every other cell what it held. -/
@[simp] theorem Memory.read_write (m : Memory) (a b : Nat) (v : Word) :
    (m.write a v).read b = if a = b then v else m.read b := by
  unfold Memory.write Memory.read
  split
  · next hv => rw [findAt_eraseAt]; split <;> simp_all
  · rw [findAt_insertAt]; split <;> rfl

theorem Memory.wf_write {m : Memory} (h : m.wf = true) {a : Nat} (ha : a < vramCells) (v : Word) :
    (m.write a v).wf = true := by
  rw [Memory.wf_iff] at h ⊢
  unfold Memory.write
  split
  · exact ⟨ascending_eraseAt h.1 a, fun p hp => h.2 p (List.mem_filter.1 hp).1⟩
  · refine ⟨ascending_insertAt h.1 a v, fun p hp => ?_⟩
    rcases mem_insertAt hp with rfl | hp
    · exact ⟨ha, ‹_›⟩
    · exact h.2 p hp

theorem Memory.wf_ofCells (cells : List (Nat × Word)) : (Memory.ofCells cells).wf = true := by
  induction cells with
  | nil => rfl
  | cons p cells ih =>
    simp only [Memory.ofCells, List.foldr_cons] at ih ⊢
    split
    · exact Memory.wf_write ih ‹_› _
    · exact ih

/-- The VRAM after reset is in canonical form (R10, R29). -/
theorem Memory.wf_resetOf (cfg : Config) : (State.resetOf cfg).vram.wf = true := rfl

theorem Memory.read_ofCells_ge (cells : List (Nat × Word)) {a : Nat} (ha : ¬ a < vramCells) :
    (Memory.ofCells cells).read a = 0 := by
  induction cells with
  | nil => rfl
  | cons p cells ih =>
    simp only [Memory.ofCells, List.foldr_cons] at ih ⊢
    split
    · have : p.1 ≠ a := by omega
      simp [this, ih]
    · exact ih

/-- A cell of a loaded VRAM holds the image's word of that number. -/
theorem Memory.read_ofCells (cells : List (Nat × Word)) {a : Nat} (ha : a < vramCells) :
    (Memory.ofCells cells).read a = (findAt cells a).getD 0 := by
  induction cells with
  | nil => rfl
  | cons p cells ih =>
    obtain ⟨k, w⟩ := p
    simp only [Memory.ofCells, List.foldr_cons] at ih ⊢
    by_cases hk : k = a
    · subst hk; simp [ha, findAt]
    · split
      · simp [hk, findAt, ih]
      · simp [hk, findAt, ih]

/-- In an ascending list the keys below the first one find nothing. -/
theorem findAt_eq_none_of_lt {α : Type} {m : List (Nat × α)} {a : Nat} (h : ∀ p ∈ m, a < p.1) :
    findAt m a = none := by
  induction m with
  | nil => rfl
  | cons p m ih =>
    obtain ⟨k, w⟩ := p
    have hk : a < k := h (k, w) List.mem_cons_self
    have : k ≠ a := by omega
    simp [findAt, this, ih fun q hq => h q (List.mem_cons_of_mem _ hq)]

theorem findAt_of_mem {α : Type} {m : List (Nat × α)} (h : Ascending m) {p : Nat × α} (hp : p ∈ m) :
    findAt m p.1 = some p.2 := by
  induction m with
  | nil => cases hp
  | cons q m ih =>
    obtain ⟨k, w⟩ := q
    obtain ⟨hk, hm⟩ := List.pairwise_cons.1 h
    rcases List.mem_cons.1 hp with rfl | hp
    · simp [findAt]
    · have h1 : k < p.1 := hk p hp
      have : k ≠ p.1 := by omega
      simp [findAt, this, ih hm hp]

/-- A canonical VRAM is one list only: reading alike, two of them are equal. -/
theorem Memory.ext_read {m n : Memory} (hm : m.wf = true) (hn : n.wf = true) (h : ∀ a, m.read a = n.read a) :
    m = n := by
  rw [Memory.wf_iff] at hm hn
  obtain ⟨am, zm⟩ := hm
  obtain ⟨an, zn⟩ := hn
  have key : ∀ {x y : Memory}, Ascending x → (∀ p ∈ x, p.1 < vramCells ∧ p.2 ≠ 0) → Ascending y →
      (∀ a, x.read a = y.read a) → ∀ p ∈ x, p ∈ y := by
    intro x y ax zx ay hr p hp
    have hx : x.read p.1 = p.2 := by simp [Memory.read, findAt_of_mem ax hp]
    have hy : y.read p.1 = p.2 := (hr p.1).symm.trans hx
    unfold Memory.read at hy
    cases hf : findAt y p.1 with
    | none => rw [hf] at hy; exact absurd hy.symm (zx p hp).2
    | some v =>
      rw [hf] at hy
      have hv : v = p.2 := hy
      clear hx hy hr ay
      induction y with
      | nil => cases hf
      | cons q y ih =>
        obtain ⟨k, w⟩ := q
        by_cases hk : k = p.1
        · simp only [findAt, hk, if_true, Option.some.injEq] at hf
          have : p = (k, w) := by rw [hk, hf, hv]
          exact this ▸ List.mem_cons_self
        · simp only [findAt, hk, if_false] at hf
          exact List.mem_cons_of_mem _ (ih hf)
  have nodup : ∀ {x : Memory}, Ascending x → x.Nodup := fun hx =>
    hx.imp fun {p q} hpq => by rintro rfl; omega
  have perm : m.Perm n := (List.perm_ext_iff_of_nodup (nodup am) (nodup an)).2 fun p =>
    ⟨key am zm an h p, key an zn am (fun a => (h a).symm) p⟩
  exact perm.eq_of_pairwise (fun p q _ _ h1 h2 => by omega) am an

/-- Loading what a canonical VRAM saves gives it back (R136, R137). -/
theorem Memory.ofCells_of_wf {m : Memory} (h : m.wf = true) : Memory.ofCells m = m := by
  refine Memory.ext_read (Memory.wf_ofCells m) h fun a => ?_
  by_cases ha : a < vramCells
  · exact Memory.read_ofCells m ha
  · rw [Memory.read_ofCells_ge m ha]
    have hn : findAt m a = none := by
      cases hf : findAt m a with
      | none => rfl
      | some v =>
        have hz := ((Memory.wf_iff m).1 h).2
        clear h
        induction m with
        | nil => cases hf
        | cons q m ih =>
          obtain ⟨k, w⟩ := q
          by_cases hk : k = a
          · exact absurd (hk ▸ (hz (k, w) List.mem_cons_self).1) ha
          · simp only [findAt, hk, if_false] at hf
            exact ih hf fun p hp => hz p (List.mem_cons_of_mem _ hp)
    simp [Memory.read, hn]

/-! The masked merge -/

/-- One bit of a merge (R75). -/
@[simp] theorem getLsbD_merge (o v m : Word) (k : Nat) :
    (merge o v m).getLsbD k = if m.getLsbD k then v.getLsbD k else o.getLsbD k := by
  by_cases hk : k < 16
  · simp only [merge, BitVec.getLsbD_or, BitVec.getLsbD_and, BitVec.getLsbD_not, hk, decide_true, Bool.true_and]
    cases m.getLsbD k <;> simp
  · simp [BitVec.getLsbD_of_ge _ _ (by omega : 16 ≤ k)]

/-! Dirty sets -/

@[simp] theorem mem_insertTile (t : TileSet) (i j : Nat) : j ∈ insertTile t i ↔ j = i ∨ j ∈ t := by
  induction t with
  | nil => simp [insertTile]
  | cons k t ih =>
    unfold insertTile
    split
    · simp
    · split
      · next h => subst h; simp
      · simp only [List.mem_cons, ih]; tauto

@[simp] theorem mem_eraseTile (t : TileSet) (i j : Nat) : j ∈ eraseTile t i ↔ j ∈ t ∧ j ≠ i := by
  simp [eraseTile]

theorem ascending_insertTile {t : TileSet} (h : t.Pairwise (· < ·)) (i : Nat) :
    (insertTile t i).Pairwise (· < ·) := by
  induction t with
  | nil => simp [insertTile]
  | cons k t ih =>
    obtain ⟨hk, ht⟩ := List.pairwise_cons.1 h
    unfold insertTile
    split
    · refine List.pairwise_cons.2 ⟨fun j hj => ?_, h⟩
      rcases List.mem_cons.1 hj with rfl | hj
      · assumption
      · have := hk j hj; omega
    · split
      · exact h
      · refine List.pairwise_cons.2 ⟨fun j hj => ?_, ih ht⟩
        rcases (mem_insertTile t i j).1 hj with rfl | hj
        · omega
        · exact hk j hj

theorem ascending_eraseTile {t : TileSet} (h : t.Pairwise (· < ·)) (i : Nat) :
    (eraseTile t i).Pairwise (· < ·) := List.Pairwise.filter _ h

@[simp] theorem mem_allTiles (lay : Layout) (i : Nat) : i ∈ allTiles lay ↔ i < lay.nTiles := by
  simp [allTiles]

theorem ascending_allTiles (lay : Layout) : (allTiles lay).Pairwise (· < ·) := List.pairwise_lt_range

end Sys2Proof.Machine
end

