-- ==== Sys2Proof/Laws/State.lean ====
section
/-! SUPPORT. One lemma per field and per write of a field of State, so that no proof unfolds a record update. -/

namespace Sys2Proof.Machine

@[simp] theorem State.withVram_cfg (s : State) (v : Memory) : (s.withVram v).cfg = s.cfg := rfl
@[simp] theorem State.withVram_vram (s : State) (v : Memory) : (s.withVram v).vram = v := rfl
@[simp] theorem State.withVram_ctrl (s : State) (v : Memory) : (s.withVram v).ctrl = s.ctrl := rfl
@[simp] theorem State.withVram_scrollx (s : State) (v : Memory) : (s.withVram v).scrollx = s.scrollx := rfl
@[simp] theorem State.withVram_scrolly (s : State) (v : Memory) : (s.withVram v).scrolly = s.scrolly := rfl
@[simp] theorem State.withVram_flip (s : State) (v : Memory) : (s.withVram v).flip = s.flip := rfl
@[simp] theorem State.withVram_tpen (s : State) (v : Memory) : (s.withVram v).tpen = s.tpen := rfl
@[simp] theorem State.withVram_dirty (s : State) (v : Memory) : (s.withVram v).dirty = s.dirty := rfl
@[simp] theorem State.withVram_needRestore (s : State) (v : Memory) : (s.withVram v).needRestore = s.needRestore := rfl
@[simp] theorem State.withVram_be (s : State) (v : Memory) : (s.withVram v).be = s.be := rfl
@[simp] theorem State.withVram_out (s : State) (v : Memory) : (s.withVram v).out = s.out := rfl
@[simp] theorem State.withVram_result (s : State) (v : Memory) : (s.withVram v).result = s.result := rfl
@[simp] theorem State.withVram_input (s : State) (v : Memory) : (s.withVram v).input = s.input := rfl

@[simp] theorem State.withCtrl_cfg (s : State) (v : CtrlRegs) : (s.withCtrl v).cfg = s.cfg := rfl
@[simp] theorem State.withCtrl_vram (s : State) (v : CtrlRegs) : (s.withCtrl v).vram = s.vram := rfl
@[simp] theorem State.withCtrl_ctrl (s : State) (v : CtrlRegs) : (s.withCtrl v).ctrl = v := rfl
@[simp] theorem State.withCtrl_scrollx (s : State) (v : CtrlRegs) : (s.withCtrl v).scrollx = s.scrollx := rfl
@[simp] theorem State.withCtrl_scrolly (s : State) (v : CtrlRegs) : (s.withCtrl v).scrolly = s.scrolly := rfl
@[simp] theorem State.withCtrl_flip (s : State) (v : CtrlRegs) : (s.withCtrl v).flip = s.flip := rfl
@[simp] theorem State.withCtrl_tpen (s : State) (v : CtrlRegs) : (s.withCtrl v).tpen = s.tpen := rfl
@[simp] theorem State.withCtrl_dirty (s : State) (v : CtrlRegs) : (s.withCtrl v).dirty = s.dirty := rfl
@[simp] theorem State.withCtrl_needRestore (s : State) (v : CtrlRegs) : (s.withCtrl v).needRestore = s.needRestore := rfl
@[simp] theorem State.withCtrl_be (s : State) (v : CtrlRegs) : (s.withCtrl v).be = s.be := rfl
@[simp] theorem State.withCtrl_out (s : State) (v : CtrlRegs) : (s.withCtrl v).out = s.out := rfl
@[simp] theorem State.withCtrl_result (s : State) (v : CtrlRegs) : (s.withCtrl v).result = s.result := rfl
@[simp] theorem State.withCtrl_input (s : State) (v : CtrlRegs) : (s.withCtrl v).input = s.input := rfl

@[simp] theorem State.withScrollx_cfg (s : State) (v : PerBank Int) : (s.withScrollx v).cfg = s.cfg := rfl
@[simp] theorem State.withScrollx_vram (s : State) (v : PerBank Int) : (s.withScrollx v).vram = s.vram := rfl
@[simp] theorem State.withScrollx_ctrl (s : State) (v : PerBank Int) : (s.withScrollx v).ctrl = s.ctrl := rfl
@[simp] theorem State.withScrollx_scrollx (s : State) (v : PerBank Int) : (s.withScrollx v).scrollx = v := rfl
@[simp] theorem State.withScrollx_scrolly (s : State) (v : PerBank Int) : (s.withScrollx v).scrolly = s.scrolly := rfl
@[simp] theorem State.withScrollx_flip (s : State) (v : PerBank Int) : (s.withScrollx v).flip = s.flip := rfl
@[simp] theorem State.withScrollx_tpen (s : State) (v : PerBank Int) : (s.withScrollx v).tpen = s.tpen := rfl
@[simp] theorem State.withScrollx_dirty (s : State) (v : PerBank Int) : (s.withScrollx v).dirty = s.dirty := rfl
@[simp] theorem State.withScrollx_needRestore (s : State) (v : PerBank Int) : (s.withScrollx v).needRestore = s.needRestore := rfl
@[simp] theorem State.withScrollx_be (s : State) (v : PerBank Int) : (s.withScrollx v).be = s.be := rfl
@[simp] theorem State.withScrollx_out (s : State) (v : PerBank Int) : (s.withScrollx v).out = s.out := rfl
@[simp] theorem State.withScrollx_result (s : State) (v : PerBank Int) : (s.withScrollx v).result = s.result := rfl
@[simp] theorem State.withScrollx_input (s : State) (v : PerBank Int) : (s.withScrollx v).input = s.input := rfl

@[simp] theorem State.withScrolly_cfg (s : State) (v : PerBank Int) : (s.withScrolly v).cfg = s.cfg := rfl
@[simp] theorem State.withScrolly_vram (s : State) (v : PerBank Int) : (s.withScrolly v).vram = s.vram := rfl
@[simp] theorem State.withScrolly_ctrl (s : State) (v : PerBank Int) : (s.withScrolly v).ctrl = s.ctrl := rfl
@[simp] theorem State.withScrolly_scrollx (s : State) (v : PerBank Int) : (s.withScrolly v).scrollx = s.scrollx := rfl
@[simp] theorem State.withScrolly_scrolly (s : State) (v : PerBank Int) : (s.withScrolly v).scrolly = v := rfl
@[simp] theorem State.withScrolly_flip (s : State) (v : PerBank Int) : (s.withScrolly v).flip = s.flip := rfl
@[simp] theorem State.withScrolly_tpen (s : State) (v : PerBank Int) : (s.withScrolly v).tpen = s.tpen := rfl
@[simp] theorem State.withScrolly_dirty (s : State) (v : PerBank Int) : (s.withScrolly v).dirty = s.dirty := rfl
@[simp] theorem State.withScrolly_needRestore (s : State) (v : PerBank Int) : (s.withScrolly v).needRestore = s.needRestore := rfl
@[simp] theorem State.withScrolly_be (s : State) (v : PerBank Int) : (s.withScrolly v).be = s.be := rfl
@[simp] theorem State.withScrolly_out (s : State) (v : PerBank Int) : (s.withScrolly v).out = s.out := rfl
@[simp] theorem State.withScrolly_result (s : State) (v : PerBank Int) : (s.withScrolly v).result = s.result := rfl
@[simp] theorem State.withScrolly_input (s : State) (v : PerBank Int) : (s.withScrolly v).input = s.input := rfl

@[simp] theorem State.withFlip_cfg (s : State) (v : Bool) : (s.withFlip v).cfg = s.cfg := rfl
@[simp] theorem State.withFlip_vram (s : State) (v : Bool) : (s.withFlip v).vram = s.vram := rfl
@[simp] theorem State.withFlip_ctrl (s : State) (v : Bool) : (s.withFlip v).ctrl = s.ctrl := rfl
@[simp] theorem State.withFlip_scrollx (s : State) (v : Bool) : (s.withFlip v).scrollx = s.scrollx := rfl
@[simp] theorem State.withFlip_scrolly (s : State) (v : Bool) : (s.withFlip v).scrolly = s.scrolly := rfl
@[simp] theorem State.withFlip_flip (s : State) (v : Bool) : (s.withFlip v).flip = v := rfl
@[simp] theorem State.withFlip_tpen (s : State) (v : Bool) : (s.withFlip v).tpen = s.tpen := rfl
@[simp] theorem State.withFlip_dirty (s : State) (v : Bool) : (s.withFlip v).dirty = s.dirty := rfl
@[simp] theorem State.withFlip_needRestore (s : State) (v : Bool) : (s.withFlip v).needRestore = s.needRestore := rfl
@[simp] theorem State.withFlip_be (s : State) (v : Bool) : (s.withFlip v).be = s.be := rfl
@[simp] theorem State.withFlip_out (s : State) (v : Bool) : (s.withFlip v).out = s.out := rfl
@[simp] theorem State.withFlip_result (s : State) (v : Bool) : (s.withFlip v).result = s.result := rfl
@[simp] theorem State.withFlip_input (s : State) (v : Bool) : (s.withFlip v).input = s.input := rfl

@[simp] theorem State.withTpen_cfg (s : State) (v : PerBank (Option Nat)) : (s.withTpen v).cfg = s.cfg := rfl
@[simp] theorem State.withTpen_vram (s : State) (v : PerBank (Option Nat)) : (s.withTpen v).vram = s.vram := rfl
@[simp] theorem State.withTpen_ctrl (s : State) (v : PerBank (Option Nat)) : (s.withTpen v).ctrl = s.ctrl := rfl
@[simp] theorem State.withTpen_scrollx (s : State) (v : PerBank (Option Nat)) : (s.withTpen v).scrollx = s.scrollx := rfl
@[simp] theorem State.withTpen_scrolly (s : State) (v : PerBank (Option Nat)) : (s.withTpen v).scrolly = s.scrolly := rfl
@[simp] theorem State.withTpen_flip (s : State) (v : PerBank (Option Nat)) : (s.withTpen v).flip = s.flip := rfl
@[simp] theorem State.withTpen_tpen (s : State) (v : PerBank (Option Nat)) : (s.withTpen v).tpen = v := rfl
@[simp] theorem State.withTpen_dirty (s : State) (v : PerBank (Option Nat)) : (s.withTpen v).dirty = s.dirty := rfl
@[simp] theorem State.withTpen_needRestore (s : State) (v : PerBank (Option Nat)) : (s.withTpen v).needRestore = s.needRestore := rfl
@[simp] theorem State.withTpen_be (s : State) (v : PerBank (Option Nat)) : (s.withTpen v).be = s.be := rfl
@[simp] theorem State.withTpen_out (s : State) (v : PerBank (Option Nat)) : (s.withTpen v).out = s.out := rfl
@[simp] theorem State.withTpen_result (s : State) (v : PerBank (Option Nat)) : (s.withTpen v).result = s.result := rfl
@[simp] theorem State.withTpen_input (s : State) (v : PerBank (Option Nat)) : (s.withTpen v).input = s.input := rfl

@[simp] theorem State.withDirty_cfg (s : State) (v : PerBank TileSet) : (s.withDirty v).cfg = s.cfg := rfl
@[simp] theorem State.withDirty_vram (s : State) (v : PerBank TileSet) : (s.withDirty v).vram = s.vram := rfl
@[simp] theorem State.withDirty_ctrl (s : State) (v : PerBank TileSet) : (s.withDirty v).ctrl = s.ctrl := rfl
@[simp] theorem State.withDirty_scrollx (s : State) (v : PerBank TileSet) : (s.withDirty v).scrollx = s.scrollx := rfl
@[simp] theorem State.withDirty_scrolly (s : State) (v : PerBank TileSet) : (s.withDirty v).scrolly = s.scrolly := rfl
@[simp] theorem State.withDirty_flip (s : State) (v : PerBank TileSet) : (s.withDirty v).flip = s.flip := rfl
@[simp] theorem State.withDirty_tpen (s : State) (v : PerBank TileSet) : (s.withDirty v).tpen = s.tpen := rfl
@[simp] theorem State.withDirty_dirty (s : State) (v : PerBank TileSet) : (s.withDirty v).dirty = v := rfl
@[simp] theorem State.withDirty_needRestore (s : State) (v : PerBank TileSet) : (s.withDirty v).needRestore = s.needRestore := rfl
@[simp] theorem State.withDirty_be (s : State) (v : PerBank TileSet) : (s.withDirty v).be = s.be := rfl
@[simp] theorem State.withDirty_out (s : State) (v : PerBank TileSet) : (s.withDirty v).out = s.out := rfl
@[simp] theorem State.withDirty_result (s : State) (v : PerBank TileSet) : (s.withDirty v).result = s.result := rfl
@[simp] theorem State.withDirty_input (s : State) (v : PerBank TileSet) : (s.withDirty v).input = s.input := rfl

@[simp] theorem State.withNeedRestore_cfg (s : State) (v : Bool) : (s.withNeedRestore v).cfg = s.cfg := rfl
@[simp] theorem State.withNeedRestore_vram (s : State) (v : Bool) : (s.withNeedRestore v).vram = s.vram := rfl
@[simp] theorem State.withNeedRestore_ctrl (s : State) (v : Bool) : (s.withNeedRestore v).ctrl = s.ctrl := rfl
@[simp] theorem State.withNeedRestore_scrollx (s : State) (v : Bool) : (s.withNeedRestore v).scrollx = s.scrollx := rfl
@[simp] theorem State.withNeedRestore_scrolly (s : State) (v : Bool) : (s.withNeedRestore v).scrolly = s.scrolly := rfl
@[simp] theorem State.withNeedRestore_flip (s : State) (v : Bool) : (s.withNeedRestore v).flip = s.flip := rfl
@[simp] theorem State.withNeedRestore_tpen (s : State) (v : Bool) : (s.withNeedRestore v).tpen = s.tpen := rfl
@[simp] theorem State.withNeedRestore_dirty (s : State) (v : Bool) : (s.withNeedRestore v).dirty = s.dirty := rfl
@[simp] theorem State.withNeedRestore_needRestore (s : State) (v : Bool) : (s.withNeedRestore v).needRestore = v := rfl
@[simp] theorem State.withNeedRestore_be (s : State) (v : Bool) : (s.withNeedRestore v).be = s.be := rfl
@[simp] theorem State.withNeedRestore_out (s : State) (v : Bool) : (s.withNeedRestore v).out = s.out := rfl
@[simp] theorem State.withNeedRestore_result (s : State) (v : Bool) : (s.withNeedRestore v).result = s.result := rfl
@[simp] theorem State.withNeedRestore_input (s : State) (v : Bool) : (s.withNeedRestore v).input = s.input := rfl

@[simp] theorem State.withBe_cfg (s : State) (v : Backend) : (s.withBe v).cfg = s.cfg := rfl
@[simp] theorem State.withBe_vram (s : State) (v : Backend) : (s.withBe v).vram = s.vram := rfl
@[simp] theorem State.withBe_ctrl (s : State) (v : Backend) : (s.withBe v).ctrl = s.ctrl := rfl
@[simp] theorem State.withBe_scrollx (s : State) (v : Backend) : (s.withBe v).scrollx = s.scrollx := rfl
@[simp] theorem State.withBe_scrolly (s : State) (v : Backend) : (s.withBe v).scrolly = s.scrolly := rfl
@[simp] theorem State.withBe_flip (s : State) (v : Backend) : (s.withBe v).flip = s.flip := rfl
@[simp] theorem State.withBe_tpen (s : State) (v : Backend) : (s.withBe v).tpen = s.tpen := rfl
@[simp] theorem State.withBe_dirty (s : State) (v : Backend) : (s.withBe v).dirty = s.dirty := rfl
@[simp] theorem State.withBe_needRestore (s : State) (v : Backend) : (s.withBe v).needRestore = s.needRestore := rfl
@[simp] theorem State.withBe_be (s : State) (v : Backend) : (s.withBe v).be = v := rfl
@[simp] theorem State.withBe_out (s : State) (v : Backend) : (s.withBe v).out = s.out := rfl
@[simp] theorem State.withBe_result (s : State) (v : Backend) : (s.withBe v).result = s.result := rfl
@[simp] theorem State.withBe_input (s : State) (v : Backend) : (s.withBe v).input = s.input := rfl

@[simp] theorem State.withOut_cfg (s : State) (v : List Command) : (s.withOut v).cfg = s.cfg := rfl
@[simp] theorem State.withOut_vram (s : State) (v : List Command) : (s.withOut v).vram = s.vram := rfl
@[simp] theorem State.withOut_ctrl (s : State) (v : List Command) : (s.withOut v).ctrl = s.ctrl := rfl
@[simp] theorem State.withOut_scrollx (s : State) (v : List Command) : (s.withOut v).scrollx = s.scrollx := rfl
@[simp] theorem State.withOut_scrolly (s : State) (v : List Command) : (s.withOut v).scrolly = s.scrolly := rfl
@[simp] theorem State.withOut_flip (s : State) (v : List Command) : (s.withOut v).flip = s.flip := rfl
@[simp] theorem State.withOut_tpen (s : State) (v : List Command) : (s.withOut v).tpen = s.tpen := rfl
@[simp] theorem State.withOut_dirty (s : State) (v : List Command) : (s.withOut v).dirty = s.dirty := rfl
@[simp] theorem State.withOut_needRestore (s : State) (v : List Command) : (s.withOut v).needRestore = s.needRestore := rfl
@[simp] theorem State.withOut_be (s : State) (v : List Command) : (s.withOut v).be = s.be := rfl
@[simp] theorem State.withOut_out (s : State) (v : List Command) : (s.withOut v).out = v := rfl
@[simp] theorem State.withOut_result (s : State) (v : List Command) : (s.withOut v).result = s.result := rfl
@[simp] theorem State.withOut_input (s : State) (v : List Command) : (s.withOut v).input = s.input := rfl

@[simp] theorem State.withResult_cfg (s : State) (v : Option OpResult) : (s.withResult v).cfg = s.cfg := rfl
@[simp] theorem State.withResult_vram (s : State) (v : Option OpResult) : (s.withResult v).vram = s.vram := rfl
@[simp] theorem State.withResult_ctrl (s : State) (v : Option OpResult) : (s.withResult v).ctrl = s.ctrl := rfl
@[simp] theorem State.withResult_scrollx (s : State) (v : Option OpResult) : (s.withResult v).scrollx = s.scrollx := rfl
@[simp] theorem State.withResult_scrolly (s : State) (v : Option OpResult) : (s.withResult v).scrolly = s.scrolly := rfl
@[simp] theorem State.withResult_flip (s : State) (v : Option OpResult) : (s.withResult v).flip = s.flip := rfl
@[simp] theorem State.withResult_tpen (s : State) (v : Option OpResult) : (s.withResult v).tpen = s.tpen := rfl
@[simp] theorem State.withResult_dirty (s : State) (v : Option OpResult) : (s.withResult v).dirty = s.dirty := rfl
@[simp] theorem State.withResult_needRestore (s : State) (v : Option OpResult) : (s.withResult v).needRestore = s.needRestore := rfl
@[simp] theorem State.withResult_be (s : State) (v : Option OpResult) : (s.withResult v).be = s.be := rfl
@[simp] theorem State.withResult_out (s : State) (v : Option OpResult) : (s.withResult v).out = s.out := rfl
@[simp] theorem State.withResult_result (s : State) (v : Option OpResult) : (s.withResult v).result = v := rfl
@[simp] theorem State.withResult_input (s : State) (v : Option OpResult) : (s.withResult v).input = s.input := rfl

@[simp] theorem State.withInput_cfg (s : State) (v : List Packet) : (s.withInput v).cfg = s.cfg := rfl
@[simp] theorem State.withInput_vram (s : State) (v : List Packet) : (s.withInput v).vram = s.vram := rfl
@[simp] theorem State.withInput_ctrl (s : State) (v : List Packet) : (s.withInput v).ctrl = s.ctrl := rfl
@[simp] theorem State.withInput_scrollx (s : State) (v : List Packet) : (s.withInput v).scrollx = s.scrollx := rfl
@[simp] theorem State.withInput_scrolly (s : State) (v : List Packet) : (s.withInput v).scrolly = s.scrolly := rfl
@[simp] theorem State.withInput_flip (s : State) (v : List Packet) : (s.withInput v).flip = s.flip := rfl
@[simp] theorem State.withInput_tpen (s : State) (v : List Packet) : (s.withInput v).tpen = s.tpen := rfl
@[simp] theorem State.withInput_dirty (s : State) (v : List Packet) : (s.withInput v).dirty = s.dirty := rfl
@[simp] theorem State.withInput_needRestore (s : State) (v : List Packet) : (s.withInput v).needRestore = s.needRestore := rfl
@[simp] theorem State.withInput_be (s : State) (v : List Packet) : (s.withInput v).be = s.be := rfl
@[simp] theorem State.withInput_out (s : State) (v : List Packet) : (s.withInput v).out = s.out := rfl
@[simp] theorem State.withInput_result (s : State) (v : List Packet) : (s.withInput v).result = s.result := rfl
@[simp] theorem State.withInput_input (s : State) (v : List Packet) : (s.withInput v).input = v := rfl

end Sys2Proof.Machine
end

