-- ==== Sys2Proof/Laws/Ops.lean ====
section
/-! SUPPORT. One lemma per shared operation: what it can do, said once. -/

namespace Sys2Proof.Machine

/-! Banks and registers -/

@[simp] theorem PerBank.get_set {α : Type} (p : PerBank α) (b c : Bank) (v : α) :
    (p.set b v).get c = if c = b then v else p.get c := by cases b <;> cases c <;> rfl

theorem PerBank.ext_get {α : Type} {p q : PerBank α} (h : ∀ b, p.get b = q.get b) : p = q := by
  cases p; cases q; simpa [PerBank.get] using And.intro (h .bg) (h .fg)

@[simp] theorem CtrlRegs.get_set (c : CtrlRegs) (j k : Fin 5) (v : Word) :
    (c.set j v).get k = if k = j then v else c.get k := by fin_cases j <;> fin_cases k <;> rfl

theorem CtrlRegs.ext_get {c d : CtrlRegs} (h : ∀ k, c.get k = d.get k) : c = d := by
  cases c; cases d
  have h0 := h 0; have h1 := h 1; have h2 := h 2; have h3 := h 3; have h4 := h 4
  simp only [CtrlRegs.get] at h0 h1 h2 h3 h4
  simp [h0, h1, h2, h3, h4]

@[simp] theorem CtrlRegs.flipBit_eq (c : CtrlRegs) : c.flipBit = (c.get 4).getLsbD 0 := rfl

@[simp] theorem CtrlRegs.ofImage_toImage (c : CtrlRegs) : CtrlRegs.ofImage c.toImage = some c := rfl

theorem CtrlRegs.ofImage_of_length {l : List Word} (h : l.length = 5) :
    ∃ c : CtrlRegs, CtrlRegs.ofImage l = some c ∧ c.toImage = l := by
  match l, h with
  | [a, b, c, d, e], _ => exact ⟨⟨a, b, c, d, e⟩, rfl, rfl⟩

theorem CtrlRegs.ofImage_some {l : List Word} {c : CtrlRegs} (h : CtrlRegs.ofImage l = some c) : c.toImage = l := by
  unfold CtrlRegs.ofImage at h
  split at h
  · cases h; rfl
  · cases h

theorem CtrlRegs.ofImage_none {l : List Word} (h : l.length ≠ 5) : CtrlRegs.ofImage l = none := by
  unfold CtrlRegs.ofImage
  split
  · exact absurd rfl h
  · rfl

@[simp] theorem bankOf_num (b : Bank) : bankOf b.num = some b := by cases b <;> rfl

theorem bankOf_some {n : Nat} {b : Bank} (h : bankOf n = some b) : n = b.num := by
  unfold bankOf at h
  split at h <;> cases h <;> rfl

theorem bankOf_of_lt {n : Nat} (h : n < 2) : ∃ b : Bank, n = b.num := by
  interval_cases n
  · exact ⟨.bg, rfl⟩
  · exact ⟨.fg, rfl⟩

theorem Bank.num_lt (b : Bank) : b.num < 2 := by cases b <;> decide

theorem bankOf_of_ge {n : Nat} (h : 2 ≤ n) : bankOf n = none := by
  unfold bankOf
  split
  · omega
  · omega
  · rfl

/-! The command stream -/

@[simp] theorem State.emit_out (s : State) (cs : List Command) : (s.emit cs).out = s.out ++ cs := rfl
@[simp] theorem State.emit_be (s : State) (cs : List Command) : (s.emit cs).be = cs.foldl Backend.apply s.be := rfl
@[simp] theorem State.emit_cfg (s : State) (cs : List Command) : (s.emit cs).cfg = s.cfg := rfl
@[simp] theorem State.emit_vram (s : State) (cs : List Command) : (s.emit cs).vram = s.vram := rfl
@[simp] theorem State.emit_ctrl (s : State) (cs : List Command) : (s.emit cs).ctrl = s.ctrl := rfl
@[simp] theorem State.emit_scrollx (s : State) (cs : List Command) : (s.emit cs).scrollx = s.scrollx := rfl
@[simp] theorem State.emit_scrolly (s : State) (cs : List Command) : (s.emit cs).scrolly = s.scrolly := rfl
@[simp] theorem State.emit_flip (s : State) (cs : List Command) : (s.emit cs).flip = s.flip := rfl
@[simp] theorem State.emit_tpen (s : State) (cs : List Command) : (s.emit cs).tpen = s.tpen := rfl
@[simp] theorem State.emit_dirty (s : State) (cs : List Command) : (s.emit cs).dirty = s.dirty := rfl
@[simp] theorem State.emit_needRestore (s : State) (cs : List Command) : (s.emit cs).needRestore = s.needRestore := rfl
@[simp] theorem State.emit_result (s : State) (cs : List Command) : (s.emit cs).result = s.result := rfl
@[simp] theorem State.emit_input (s : State) (cs : List Command) : (s.emit cs).input = s.input := rfl

@[simp] theorem Backend.apply_markTileDirty (be : Backend) (b : Bank) (i : Nat) :
    be.apply (.markTileDirty b i) = be := rfl

/-- Mark commands write no latch (R22, R23). -/
@[simp] theorem Backend.foldl_marks (be : Backend) (b : Bank) (l : List Nat) :
    (l.map (Command.markTileDirty b)).foldl Backend.apply be = be := by
  induction l with
  | nil => rfl
  | cons i l ih => simpa using ih

@[simp] theorem Backend.foldl_markAll (be : Backend) (lay : Layout) :
    (markAllCommands lay).foldl Backend.apply be = be := by
  simp [markAllCommands]

/-- Draw records write no latch (R22, R23). -/
@[simp] theorem Backend.foldl_scanlines (be : Backend) (s : State) (b : Bank) (clip : Clip) (o : Bool)
    (cct : ColorTable) (p m : Nat) (planes : Planes) :
    (s.scanlines b clip o cct p m planes).foldl Backend.apply be = be := by
  unfold State.scanlines
  induction clipLines clip with
  | nil => rfl
  | cons y l ih => simpa [Backend.apply] using ih

/-! The VRAM as the operations see it -/

@[simp] theorem State.readVram_withVram (s : State) (v : Memory) (a : Nat) :
    (s.withVram v).readVram a = v.read a := rfl
@[simp] theorem State.readVram_withCtrl (s : State) (v : CtrlRegs) (a : Nat) :
    (s.withCtrl v).readVram a = s.readVram a := rfl
@[simp] theorem State.readVram_withScrollx (s : State) (v : PerBank Int) (a : Nat) :
    (s.withScrollx v).readVram a = s.readVram a := rfl
@[simp] theorem State.readVram_withScrolly (s : State) (v : PerBank Int) (a : Nat) :
    (s.withScrolly v).readVram a = s.readVram a := rfl
@[simp] theorem State.readVram_withFlip (s : State) (v : Bool) (a : Nat) :
    (s.withFlip v).readVram a = s.readVram a := rfl
@[simp] theorem State.readVram_withTpen (s : State) (v : PerBank (Option Nat)) (a : Nat) :
    (s.withTpen v).readVram a = s.readVram a := rfl
@[simp] theorem State.readVram_withDirty (s : State) (v : PerBank TileSet) (a : Nat) :
    (s.withDirty v).readVram a = s.readVram a := rfl
@[simp] theorem State.readVram_withNeedRestore (s : State) (v : Bool) (a : Nat) :
    (s.withNeedRestore v).readVram a = s.readVram a := rfl
@[simp] theorem State.readVram_withBe (s : State) (v : Backend) (a : Nat) :
    (s.withBe v).readVram a = s.readVram a := rfl
@[simp] theorem State.readVram_withOut (s : State) (v : List Command) (a : Nat) :
    (s.withOut v).readVram a = s.readVram a := rfl
@[simp] theorem State.readVram_withResult (s : State) (v : Option OpResult) (a : Nat) :
    (s.withResult v).readVram a = s.readVram a := rfl
@[simp] theorem State.readVram_withInput (s : State) (v : List Packet) (a : Nat) :
    (s.withInput v).readVram a = s.readVram a := rfl
@[simp] theorem State.readVram_emit (s : State) (cs : List Command) (a : Nat) :
    (s.emit cs).readVram a = s.readVram a := rfl
@[simp] theorem State.readVram_markTile (s : State) (b : Bank) (i a : Nat) :
    (s.markTile b i).readVram a = s.readVram a := rfl
@[simp] theorem State.readVram_unmarkTile (s : State) (b : Bank) (i a : Nat) :
    (s.unmarkTile b i).readVram a = s.readVram a := rfl

@[simp] theorem State.readVram_mergeVram (s : State) (a b : Nat) (d m : Word) :
    (s.mergeVram a d m).readVram b = if a = b then merge (s.readVram a) d m else s.readVram b := by
  simp [State.mergeVram, State.readVram]

/-! Operand checks: the two ways each can end -/

@[simp] theorem withBank_num (b : Bank) (k : Bank → StepOutcome) : withBank b.num k = k b := by simp [withBank]

theorem withBank_ge {n : Nat} (h : 2 ≤ n) (k : Bank → StepOutcome) : withBank n k = .fault .outOfRange := by
  simp [withBank, bankOf_of_ge h, raise]

theorem withBank_next {n : Nat} {k : Bank → StepOutcome} {t : State} (h : withBank n k = .next t) :
    ∃ b : Bank, n = b.num ∧ k b = .next t := by
  by_cases hn : n < 2
  · obtain ⟨b, rfl⟩ := bankOf_of_lt hn
    exact ⟨b, rfl, by simpa using h⟩
  · rw [withBank_ge (by omega)] at h; cases h

theorem withTile_num (b : Bank) {i : Nat} {s : State} (h : i < s.cfg.layout.nTiles) (k : Bank → StepOutcome) :
    withTile b.num i s k = k b := by simp [withTile, h]

theorem withTile_bad {n i : Nat} {s : State} (h : ¬ (n < 2 ∧ i < s.cfg.layout.nTiles)) (k : Bank → StepOutcome) :
    withTile n i s k = .fault .outOfRange := by
  by_cases hn : n < 2
  · obtain ⟨b, rfl⟩ := bankOf_of_lt hn
    have hi : ¬ i < s.cfg.layout.nTiles := fun hi => h ⟨hn, hi⟩
    simp [withTile, hi, raise]
  · simp [withTile, bankOf_of_ge (by omega : 2 ≤ n), raise]

theorem withTile_next {n i : Nat} {s t : State} {k : Bank → StepOutcome} (h : withTile n i s k = .next t) :
    ∃ b : Bank, n = b.num ∧ i < s.cfg.layout.nTiles ∧ k b = .next t := by
  by_cases hn : n < 2 ∧ i < s.cfg.layout.nTiles
  · obtain ⟨b, rfl⟩ := bankOf_of_lt hn.1
    exact ⟨b, rfl, hn.2, by rwa [withTile_num b hn.2] at h⟩
  · rw [withTile_bad hn] at h; cases h

theorem unlessRestorePending_next {s t : State} {k : StepOutcome} (h : unlessRestorePending s k = .next t) :
    s.needRestore = false ∧ k = .next t := by
  unfold unlessRestorePending at h
  split at h
  · cases h
  · next hn => exact ⟨by simpa using hn, h⟩

theorem unlessRestorePending_ready {s : State} (h : s.needRestore = false) (k : StepOutcome) :
    unlessRestorePending s k = k := by simp [unlessRestorePending, h]

theorem withDrawBank_num (b : Bank) {s : State} (h : s.needRestore = false) (k : Bank → StepOutcome) :
    withDrawBank b.num s k = k b := by simp [withDrawBank, unlessRestorePending_ready h]

theorem withDrawBank_next {n : Nat} {s t : State} {k : Bank → StepOutcome} (h : withDrawBank n s k = .next t) :
    ∃ b : Bank, n = b.num ∧ s.needRestore = false ∧ k b = .next t := by
  obtain ⟨b, hb, h⟩ := withBank_next h
  exact ⟨b, hb, unlessRestorePending_next h⟩

end Sys2Proof.Machine
end

