-- ==== Sys2Proof/Laws/Frames.lean ====
section
/-! SUPPORT. One lemma per field and per shared operation: what the operation writes, and that it writes nothing else. -/

namespace Sys2Proof.Machine

@[simp] theorem State.mergeCtrl_cfg (s : State) (k : Fin 5) (d m : Word) : (s.mergeCtrl k d m).cfg = s.cfg := rfl
@[simp] theorem State.mergeCtrl_vram (s : State) (k : Fin 5) (d m : Word) : (s.mergeCtrl k d m).vram = s.vram := rfl
@[simp] theorem State.mergeCtrl_ctrl (s : State) (k : Fin 5) (d m : Word) :
    (s.mergeCtrl k d m).ctrl = s.ctrl.set k (merge (s.ctrl.get k) d m) := rfl
@[simp] theorem State.mergeCtrl_scrollx (s : State) (k : Fin 5) (d m : Word) : (s.mergeCtrl k d m).scrollx = s.scrollx := rfl
@[simp] theorem State.mergeCtrl_scrolly (s : State) (k : Fin 5) (d m : Word) : (s.mergeCtrl k d m).scrolly = s.scrolly := rfl
@[simp] theorem State.mergeCtrl_flip (s : State) (k : Fin 5) (d m : Word) : (s.mergeCtrl k d m).flip = s.flip := rfl
@[simp] theorem State.mergeCtrl_tpen (s : State) (k : Fin 5) (d m : Word) : (s.mergeCtrl k d m).tpen = s.tpen := rfl
@[simp] theorem State.mergeCtrl_dirty (s : State) (k : Fin 5) (d m : Word) : (s.mergeCtrl k d m).dirty = s.dirty := rfl
@[simp] theorem State.mergeCtrl_needRestore (s : State) (k : Fin 5) (d m : Word) :
    (s.mergeCtrl k d m).needRestore = s.needRestore := rfl
@[simp] theorem State.mergeCtrl_be (s : State) (k : Fin 5) (d m : Word) : (s.mergeCtrl k d m).be = s.be := rfl
@[simp] theorem State.mergeCtrl_out (s : State) (k : Fin 5) (d m : Word) : (s.mergeCtrl k d m).out = s.out := rfl
@[simp] theorem State.mergeCtrl_result (s : State) (k : Fin 5) (d m : Word) : (s.mergeCtrl k d m).result = s.result := rfl
@[simp] theorem State.mergeCtrl_input (s : State) (k : Fin 5) (d m : Word) : (s.mergeCtrl k d m).input = s.input := rfl

@[simp] theorem State.mergeVram_cfg (s : State) (a : Nat) (d m : Word) : (s.mergeVram a d m).cfg = s.cfg := rfl
@[simp] theorem State.mergeVram_vram (s : State) (a : Nat) (d m : Word) :
    (s.mergeVram a d m).vram = s.vram.write a (merge (s.readVram a) d m) := rfl
@[simp] theorem State.mergeVram_ctrl (s : State) (a : Nat) (d m : Word) : (s.mergeVram a d m).ctrl = s.ctrl := rfl
@[simp] theorem State.mergeVram_scrollx (s : State) (a : Nat) (d m : Word) : (s.mergeVram a d m).scrollx = s.scrollx := rfl
@[simp] theorem State.mergeVram_scrolly (s : State) (a : Nat) (d m : Word) : (s.mergeVram a d m).scrolly = s.scrolly := rfl
@[simp] theorem State.mergeVram_flip (s : State) (a : Nat) (d m : Word) : (s.mergeVram a d m).flip = s.flip := rfl
@[simp] theorem State.mergeVram_tpen (s : State) (a : Nat) (d m : Word) : (s.mergeVram a d m).tpen = s.tpen := rfl
@[simp] theorem State.mergeVram_dirty (s : State) (a : Nat) (d m : Word) : (s.mergeVram a d m).dirty = s.dirty := rfl
@[simp] theorem State.mergeVram_needRestore (s : State) (a : Nat) (d m : Word) :
    (s.mergeVram a d m).needRestore = s.needRestore := rfl
@[simp] theorem State.mergeVram_be (s : State) (a : Nat) (d m : Word) : (s.mergeVram a d m).be = s.be := rfl
@[simp] theorem State.mergeVram_out (s : State) (a : Nat) (d m : Word) : (s.mergeVram a d m).out = s.out := rfl
@[simp] theorem State.mergeVram_result (s : State) (a : Nat) (d m : Word) : (s.mergeVram a d m).result = s.result := rfl
@[simp] theorem State.mergeVram_input (s : State) (a : Nat) (d m : Word) : (s.mergeVram a d m).input = s.input := rfl

@[simp] theorem State.markTile_cfg (s : State) (b : Bank) (i : Nat) : (s.markTile b i).cfg = s.cfg := rfl
@[simp] theorem State.markTile_vram (s : State) (b : Bank) (i : Nat) : (s.markTile b i).vram = s.vram := rfl
@[simp] theorem State.markTile_ctrl (s : State) (b : Bank) (i : Nat) : (s.markTile b i).ctrl = s.ctrl := rfl
@[simp] theorem State.markTile_scrollx (s : State) (b : Bank) (i : Nat) : (s.markTile b i).scrollx = s.scrollx := rfl
@[simp] theorem State.markTile_scrolly (s : State) (b : Bank) (i : Nat) : (s.markTile b i).scrolly = s.scrolly := rfl
@[simp] theorem State.markTile_flip (s : State) (b : Bank) (i : Nat) : (s.markTile b i).flip = s.flip := rfl
@[simp] theorem State.markTile_tpen (s : State) (b : Bank) (i : Nat) : (s.markTile b i).tpen = s.tpen := rfl
@[simp] theorem State.markTile_dirty (s : State) (b : Bank) (i : Nat) :
    (s.markTile b i).dirty = s.dirty.set b (insertTile (s.dirty.get b) i) := rfl
@[simp] theorem State.markTile_needRestore (s : State) (b : Bank) (i : Nat) :
    (s.markTile b i).needRestore = s.needRestore := rfl
@[simp] theorem State.markTile_be (s : State) (b : Bank) (i : Nat) : (s.markTile b i).be = s.be := rfl
@[simp] theorem State.markTile_out (s : State) (b : Bank) (i : Nat) :
    (s.markTile b i).out = s.out ++ [.markTileDirty b i] := rfl
@[simp] theorem State.markTile_result (s : State) (b : Bank) (i : Nat) : (s.markTile b i).result = s.result := rfl
@[simp] theorem State.markTile_input (s : State) (b : Bank) (i : Nat) : (s.markTile b i).input = s.input := rfl

@[simp] theorem State.unmarkTile_cfg (s : State) (b : Bank) (i : Nat) : (s.unmarkTile b i).cfg = s.cfg := rfl
@[simp] theorem State.unmarkTile_vram (s : State) (b : Bank) (i : Nat) : (s.unmarkTile b i).vram = s.vram := rfl
@[simp] theorem State.unmarkTile_ctrl (s : State) (b : Bank) (i : Nat) : (s.unmarkTile b i).ctrl = s.ctrl := rfl
@[simp] theorem State.unmarkTile_scrollx (s : State) (b : Bank) (i : Nat) : (s.unmarkTile b i).scrollx = s.scrollx := rfl
@[simp] theorem State.unmarkTile_scrolly (s : State) (b : Bank) (i : Nat) : (s.unmarkTile b i).scrolly = s.scrolly := rfl
@[simp] theorem State.unmarkTile_flip (s : State) (b : Bank) (i : Nat) : (s.unmarkTile b i).flip = s.flip := rfl
@[simp] theorem State.unmarkTile_tpen (s : State) (b : Bank) (i : Nat) : (s.unmarkTile b i).tpen = s.tpen := rfl
@[simp] theorem State.unmarkTile_dirty (s : State) (b : Bank) (i : Nat) :
    (s.unmarkTile b i).dirty = s.dirty.set b (eraseTile (s.dirty.get b) i) := rfl
@[simp] theorem State.unmarkTile_needRestore (s : State) (b : Bank) (i : Nat) :
    (s.unmarkTile b i).needRestore = s.needRestore := rfl
@[simp] theorem State.unmarkTile_be (s : State) (b : Bank) (i : Nat) : (s.unmarkTile b i).be = s.be := rfl
@[simp] theorem State.unmarkTile_out (s : State) (b : Bank) (i : Nat) : (s.unmarkTile b i).out = s.out := rfl
@[simp] theorem State.unmarkTile_result (s : State) (b : Bank) (i : Nat) : (s.unmarkTile b i).result = s.result := rfl
@[simp] theorem State.unmarkTile_input (s : State) (b : Bank) (i : Nat) : (s.unmarkTile b i).input = s.input := rfl

@[simp] theorem State.recomputeX_cfg (s : State) (b : Bank) : (s.recomputeX b).cfg = s.cfg := rfl
@[simp] theorem State.recomputeX_vram (s : State) (b : Bank) : (s.recomputeX b).vram = s.vram := rfl
@[simp] theorem State.recomputeX_ctrl (s : State) (b : Bank) : (s.recomputeX b).ctrl = s.ctrl := rfl
@[simp] theorem State.recomputeX_scrollx (s : State) (b : Bank) :
    (s.recomputeX b).scrollx = s.scrollx.set b (cacheX (s.ctrl.get (xReg b))) := rfl
@[simp] theorem State.recomputeX_scrolly (s : State) (b : Bank) : (s.recomputeX b).scrolly = s.scrolly := rfl
@[simp] theorem State.recomputeX_flip (s : State) (b : Bank) : (s.recomputeX b).flip = s.flip := rfl
@[simp] theorem State.recomputeX_tpen (s : State) (b : Bank) : (s.recomputeX b).tpen = s.tpen := rfl
@[simp] theorem State.recomputeX_dirty (s : State) (b : Bank) : (s.recomputeX b).dirty = s.dirty := rfl
@[simp] theorem State.recomputeX_needRestore (s : State) (b : Bank) :
    (s.recomputeX b).needRestore = s.needRestore := rfl
@[simp] theorem State.recomputeX_be (s : State) (b : Bank) : (s.recomputeX b).be = s.be := rfl
@[simp] theorem State.recomputeX_out (s : State) (b : Bank) : (s.recomputeX b).out = s.out := rfl
@[simp] theorem State.recomputeX_result (s : State) (b : Bank) : (s.recomputeX b).result = s.result := rfl
@[simp] theorem State.recomputeX_input (s : State) (b : Bank) : (s.recomputeX b).input = s.input := rfl

@[simp] theorem State.recomputeY_cfg (s : State) (b : Bank) : (s.recomputeY b).cfg = s.cfg := rfl
@[simp] theorem State.recomputeY_vram (s : State) (b : Bank) : (s.recomputeY b).vram = s.vram := rfl
@[simp] theorem State.recomputeY_ctrl (s : State) (b : Bank) : (s.recomputeY b).ctrl = s.ctrl := rfl
@[simp] theorem State.recomputeY_scrollx (s : State) (b : Bank) : (s.recomputeY b).scrollx = s.scrollx := rfl
@[simp] theorem State.recomputeY_scrolly (s : State) (b : Bank) :
    (s.recomputeY b).scrolly = s.scrolly.set b (cacheY s.cfg.yInvert (s.ctrl.get (yReg b))) := rfl
@[simp] theorem State.recomputeY_flip (s : State) (b : Bank) : (s.recomputeY b).flip = s.flip := rfl
@[simp] theorem State.recomputeY_tpen (s : State) (b : Bank) : (s.recomputeY b).tpen = s.tpen := rfl
@[simp] theorem State.recomputeY_dirty (s : State) (b : Bank) : (s.recomputeY b).dirty = s.dirty := rfl
@[simp] theorem State.recomputeY_needRestore (s : State) (b : Bank) :
    (s.recomputeY b).needRestore = s.needRestore := rfl
@[simp] theorem State.recomputeY_be (s : State) (b : Bank) : (s.recomputeY b).be = s.be := rfl
@[simp] theorem State.recomputeY_out (s : State) (b : Bank) : (s.recomputeY b).out = s.out := rfl
@[simp] theorem State.recomputeY_result (s : State) (b : Bank) : (s.recomputeY b).result = s.result := rfl
@[simp] theorem State.recomputeY_input (s : State) (b : Bank) : (s.recomputeY b).input = s.input := rfl

@[simp] theorem State.markAll_cfg (s : State) : s.markAll.cfg = s.cfg := rfl
@[simp] theorem State.markAll_vram (s : State) : s.markAll.vram = s.vram := rfl
@[simp] theorem State.markAll_ctrl (s : State) : s.markAll.ctrl = s.ctrl := rfl
@[simp] theorem State.markAll_scrollx (s : State) : s.markAll.scrollx = s.scrollx := rfl
@[simp] theorem State.markAll_scrolly (s : State) : s.markAll.scrolly = s.scrolly := rfl
@[simp] theorem State.markAll_flip (s : State) : s.markAll.flip = s.flip := rfl
@[simp] theorem State.markAll_tpen (s : State) : s.markAll.tpen = s.tpen := rfl
@[simp] theorem State.markAll_dirty (s : State) :
    s.markAll.dirty = ⟨allTiles s.cfg.layout, allTiles s.cfg.layout⟩ := rfl
@[simp] theorem State.markAll_needRestore (s : State) :
    s.markAll.needRestore = s.needRestore := rfl
@[simp] theorem State.markAll_be (s : State) : s.markAll.be = s.be := by simp [State.markAll]
@[simp] theorem State.markAll_out (s : State) :
    s.markAll.out = s.out ++ markAllCommands s.cfg.layout := rfl
@[simp] theorem State.markAll_result (s : State) : s.markAll.result = s.result := rfl
@[simp] theorem State.markAll_input (s : State) : s.markAll.input = s.input := rfl

@[simp] theorem State.recomputeFlip_cfg (s : State) : s.recomputeFlip.cfg = s.cfg := rfl
@[simp] theorem State.recomputeFlip_vram (s : State) : s.recomputeFlip.vram = s.vram := rfl
@[simp] theorem State.recomputeFlip_ctrl (s : State) : s.recomputeFlip.ctrl = s.ctrl := rfl
@[simp] theorem State.recomputeFlip_scrollx (s : State) : s.recomputeFlip.scrollx = s.scrollx := rfl
@[simp] theorem State.recomputeFlip_scrolly (s : State) : s.recomputeFlip.scrolly = s.scrolly := rfl
@[simp] theorem State.recomputeFlip_flip (s : State) :
    s.recomputeFlip.flip = s.ctrl.flipBit := rfl
@[simp] theorem State.recomputeFlip_tpen (s : State) : s.recomputeFlip.tpen = s.tpen := rfl
@[simp] theorem State.recomputeFlip_dirty (s : State) : s.recomputeFlip.dirty = s.dirty := rfl
@[simp] theorem State.recomputeFlip_needRestore (s : State) :
    s.recomputeFlip.needRestore = s.needRestore := rfl
@[simp] theorem State.recomputeFlip_be (s : State) :
    s.recomputeFlip.be = { s.be with flip := ⟨(s.ctrl.flipBit, s.ctrl.flipBit), (s.ctrl.flipBit, s.ctrl.flipBit)⟩ } := rfl
@[simp] theorem State.recomputeFlip_out (s : State) :
    s.recomputeFlip.out = s.out ++ [.setFlip .bg s.ctrl.flipBit s.ctrl.flipBit, .setFlip .fg s.ctrl.flipBit s.ctrl.flipBit] := rfl
@[simp] theorem State.recomputeFlip_result (s : State) : s.recomputeFlip.result = s.result := rfl
@[simp] theorem State.recomputeFlip_input (s : State) : s.recomputeFlip.input = s.input := rfl

end Sys2Proof.Machine
end

