-- ==== Sys2Proof/Laws/Exec.lean ====
section
/-! SUPPORT. One inversion lemma per operation: if it answers a next state, its operands were legal and the state is
the one named. A claim over all operations cites these and unfolds no meaning. -/

namespace Sys2Proof.Machine

theorem execVramRd_next {offset : Nat} {s t : State} (h : execVramRd offset s = .next t) :
    offset < vramCells ∧ t = s.withResult (some (.cell (s.readVram offset))) := by
  unfold execVramRd at h
  split at h
  · exact ⟨‹_›, by cases h; rfl⟩
  · cases h

theorem execVramWr_next {offset : Nat} {data mask : Word} {s t : State} (h : execVramWr offset data mask s = .next t) :
    offset < vramCells ∧
      ((∃ b i, classify s.cfg.layout offset = .tile b i ∧
          t = ((s.mergeVram offset data mask).markTile b i).withResult none) ∨
       ((∀ b i, classify s.cfg.layout offset ≠ .tile b i) ∧ t = (s.mergeVram offset data mask).withResult none)) := by
  unfold execVramWr at h
  split at h
  · refine ⟨‹_›, ?_⟩
    split at h
    · next b i hc => exact .inl ⟨b, i, hc, by cases h; rfl⟩
    · next hc => exact .inr ⟨by simp [hc], by cases h; rfl⟩
    · next hc => exact .inr ⟨by simp [hc], by cases h; rfl⟩
  · cases h

theorem execXscrWr_next {bank : Nat} {data mask : Word} {s t : State} (h : execXscrWr bank data mask s = .next t) :
    ∃ b : Bank, bank = b.num ∧ t = ((s.mergeCtrl (xReg b) data mask).recomputeX b).withResult none := by
  obtain ⟨b, hb, h⟩ := withBank_next h
  exact ⟨b, hb, by cases h; rfl⟩

theorem execYscrWr_next {bank : Nat} {data mask : Word} {s t : State} (h : execYscrWr bank data mask s = .next t) :
    ∃ b : Bank, bank = b.num ∧ t = ((s.mergeCtrl (yReg b) data mask).recomputeY b).withResult none := by
  obtain ⟨b, hb, h⟩ := withBank_next h
  exact ⟨b, hb, by cases h; rfl⟩

theorem execCtrlWr_next {offset : Nat} {data mask : Word} {s t : State} (h : execCtrlWr offset data mask s = .next t) :
    offset = 0 ∧ t = (s.mergeCtrl 4 data mask).recomputeFlip.withResult none := by
  unfold execCtrlWr at h
  split at h
  · exact ⟨by omega, by cases h; rfl⟩
  · cases h

theorem execReset_next {s t : State} (h : execReset s = .next t) :
    t = (((State.resetOf s.cfg).withInput s.input).withOut (s.out ++ resetCommands s.cfg.layout)).withResult none := by
  cases h; rfl

theorem execStateSave_next {s t : State} (h : execStateSave s = .next t) :
    t = s.withResult (some (.images s.vram.toImage s.ctrl.toImage)) := by
  cases h; rfl

theorem execStateLoad_next {img : VramImage} {regs : List Word} {s t : State} (h : execStateLoad img regs s = .next t) :
    ∃ c : CtrlRegs, CtrlRegs.ofImage regs = some c ∧ img.length = vramCells ∧
      t = ((((s.withVram (Memory.ofCells img.cells)).withCtrl c).markAll).withNeedRestore true).withResult none := by
  unfold execStateLoad at h
  split at h
  · cases h
  · next c hc =>
    split at h
    · exact ⟨c, hc, ‹_›, by cases h; rfl⟩
    · cases h

theorem execRestoreScroll_next {s t : State} (h : execRestoreScroll s = .next t) :
    t = (((((s.recomputeX .bg).recomputeX .fg).recomputeY .bg).recomputeY .fg).recomputeFlip.withNeedRestore
      false).withResult none := by
  cases h; rfl

theorem execTmapUpdate_next {s t : State} (h : execTmapUpdate s = .next t) :
    s.needRestore = false ∧ t = (s.emit s.tmapCommands).withResult none := by
  obtain ⟨hn, h⟩ := unlessRestorePending_next h
  exact ⟨hn, by cases h; rfl⟩

theorem execTileDec_next {bank i : Nat} {s t : State} (h : execTileDec bank i s = .next t) :
    ∃ b : Bank, bank = b.num ∧ i < s.cfg.layout.nTiles ∧ t = s.withResult (some (.tile (s.decodeTile b i))) := by
  obtain ⟨b, hb, hi, h⟩ := withTile_next h
  exact ⟨b, hb, hi, by cases h; rfl⟩

theorem execBeRedecode_next {bank i : Nat} {s t : State} (h : execBeRedecode bank i s = .next t) :
    ∃ b : Bank, bank = b.num ∧ i < s.cfg.layout.nTiles ∧
      t = (s.unmarkTile b i).withResult (some (.tile (s.decodeTile b i))) := by
  obtain ⟨b, hb, hi, h⟩ := withTile_next h
  exact ⟨b, hb, hi, by cases h; rfl⟩

theorem execSetScroll_next {bank : Nat} {x y : Int} {s t : State} (h : execSetScroll bank x y s = .next t) :
    ∃ b : Bank, bank = b.num ∧
      t = ((s.withScrollx (s.scrollx.set b (-x))).withScrolly (s.scrolly.set b y)).withResult none := by
  obtain ⟨b, hb, h⟩ := withBank_next h
  exact ⟨b, hb, by cases h; rfl⟩

theorem execSetTpen_next {bank pen : Nat} {s t : State} (h : execSetTpen bank pen s = .next t) :
    ∃ b : Bank, bank = b.num ∧
      t = ((s.withTpen (s.tpen.set b (some pen))).emit [.setTransparentPen b pen]).withResult none := by
  obtain ⟨b, hb, h⟩ := withBank_next h
  exact ⟨b, hb, by cases h; rfl⟩

theorem execDraw_next {bank : Nat} {clip : Clip} {o : Bool} {p m : Nat} {s t : State}
    (h : execDraw bank clip o p m s = .next t) :
    ∃ b : Bank, bank = b.num ∧ s.needRestore = false ∧
      t = (s.emit [.draw b clip o p m (s.alignDx b) (s.alignDy b) s.flip]).withResult none := by
  obtain ⟨b, hb, hn, h⟩ := withDrawBank_next h
  exact ⟨b, hb, hn, by cases h; rfl⟩

theorem execDrawOfs_next {bank : Nat} {clip : Clip} {o : Bool} {p m : Nat} {dx dy : Int} {s t : State}
    (h : execDrawOfs bank clip o p m dx dy s = .next t) :
    ∃ b : Bank, bank = b.num ∧ s.needRestore = false ∧
      t = (s.emit [.draw b clip o p m (s.alignDx b + dx) (s.alignDy b + dy) s.flip]).withResult none := by
  obtain ⟨b, hb, hn, h⟩ := withDrawBank_next h
  exact ⟨b, hb, hn, by cases h; rfl⟩

theorem execDrawSpecial_next {bank : Nat} {clip : Clip} {o : Bool} {cct : ColorTable} {p m : Nat} {planes : Planes}
    {s t : State} (h : execDrawSpecial bank clip o cct p m planes s = .next t) :
    ∃ b : Bank, bank = b.num ∧ s.needRestore = false ∧ s.cfg.layout = .standard ∧
      t = (s.emit (s.scanlines b clip o cct p m planes)).withResult none := by
  obtain ⟨b, hb, hn, h⟩ := withDrawBank_next h
  refine ⟨b, hb, hn, ?_⟩
  split at h
  · exact ⟨‹_›, by cases h; rfl⟩
  · cases h

theorem execRoadPix_next {pixel lc : Word} {s t : State} (h : execRoadPix pixel lc s = .next t) :
    t = s.withResult (some (.pixel (roadPix pixel lc))) := by
  cases h; rfl

end Sys2Proof.Machine
end

