-- ==== Sys2Proof/Laws/PerInstr.lean ====
section
/-! SUPPORT. Per operation: the transfer that carries it is one its own opcode-table row matches. -/

namespace Sys2Proof.Laws.TableMatch

/-- The row of the opcode table that bears the operation's mnemonic covers its encoding (R52, R53). -/
def Statement (i : Instr) : Prop :=
  ∀ lay, i.wf lay = true → ∃ row ∈ btRows ++ sbRows, row.mnemonic = i.mnemonic ∧ row.covers (encode i) = true

/-- The top three bits of a BT word are RW and WIN (R51). -/
theorem btWord_top (rw : BitVec 1) (win : BitVec 2) (offset : Nat) (mask data : Word) :
    btWord rw win offset mask data &&& BitVec.ofNat 50 0x3800000000000 = btWord rw win 0 0 0 := by
  apply BitVec.eq_of_getLsbD_eq
  intro k hk
  simp only [btWord, BitVec.getLsbD_and, BitVec.getLsbD_append]
  interval_cases k <;> simp

/-- Above the lane fields a BT word is RW, WIN and OFFSET (R51). -/
theorem btWord_head (rw : BitVec 1) (win : BitVec 2) (offset : Nat) (mask data : Word) :
    btWord rw win offset mask data &&& BitVec.ofNat 50 0x3FFFF00000000 = btWord rw win offset 0 0 := by
  apply BitVec.eq_of_getLsbD_eq
  intro k hk
  simp only [btWord, BitVec.getLsbD_and, BitVec.getLsbD_append]
  interval_cases k <;> simp

theorem vramRd (offset : Nat) : Statement (.vramRd offset) := fun _ _ =>
  ⟨⟨"VRAM_RD", true, 0x3800000000000, 0x0000000000000⟩, by simp [btRows], rfl,
    by simp only [TableRow.covers, encode, btWord_top]; decide⟩

theorem vramWr (offset : Nat) (data mask : Word) : Statement (.vramWr offset data mask) := fun _ _ =>
  ⟨⟨"VRAM_WR", true, 0x3800000000000, 0x2000000000000⟩, by simp [btRows], rfl,
    by simp only [TableRow.covers, encode, btWord_top]; decide⟩

/-- A register window word with offset 0 or 1 under the mask that leaves offset bit 0 out (R52). -/
theorem btWord_window {bank : Nat} (hb : bank < 2) (win : BitVec 2) (mask data : Word) :
    btWord 1 win bank mask data &&& BitVec.ofNat 50 0x3FFFE00000000 = btWord 1 win 0 0 0 := by
  have h : BitVec.ofNat 50 0x3FFFE00000000 = BitVec.ofNat 50 0x3FFFF00000000 &&& BitVec.ofNat 50 0x3FFFE00000000 := by
    decide
  rw [h, ← BitVec.and_assoc, btWord_head]
  interval_cases bank <;> revert win <;> decide

theorem xscrWr (bank : Nat) (data mask : Word) : Statement (.xscrWr bank data mask) := fun lay h =>
  ⟨⟨"XSCR_WR", true, 0x3FFFE00000000, 0x2800000000000⟩, by simp [btRows], rfl, by
    have hb : bank < 2 := by simpa [Instr.wf] using h
    simp only [TableRow.covers, encode, btWord_window hb]; decide⟩

theorem yscrWr (bank : Nat) (data mask : Word) : Statement (.yscrWr bank data mask) := fun lay h =>
  ⟨⟨"YSCR_WR", true, 0x3FFFE00000000, 0x3000000000000⟩, by simp [btRows], rfl, by
    have hb : bank < 2 := by simpa [Instr.wf] using h
    simp only [TableRow.covers, encode, btWord_window hb]; decide⟩

theorem ctrlWr (offset : Nat) (data mask : Word) : Statement (.ctrlWr offset data mask) := fun lay h =>
  ⟨⟨"CTRL_WR", true, 0x3FFFF00000000, 0x3800000000000⟩, by simp [btRows], rfl, by
    have hb : offset = 0 := by simpa [Instr.wf] using h
    subst hb
    simp only [TableRow.covers, encode, btWord_head]; decide⟩

theorem reset : Statement .reset := fun _ _ => ⟨⟨"RESET", false, 0xF, 0x0⟩, by simp [sbRows], rfl, rfl⟩

theorem stateSave : Statement .stateSave := fun _ _ =>
  ⟨⟨"STATE_SAVE", false, 0xF, 0x1⟩, by simp [sbRows], rfl, rfl⟩

theorem stateLoad (vramImage : VramImage) (ctrlImage : List Word) : Statement (.stateLoad vramImage ctrlImage) :=
  fun _ _ => ⟨⟨"STATE_LOAD", false, 0xF, 0x2⟩, by simp [sbRows], rfl, rfl⟩

theorem restoreScroll : Statement .restoreScroll := fun _ _ =>
  ⟨⟨"RESTORE_SCROLL", false, 0xF, 0x3⟩, by simp [sbRows], rfl, rfl⟩

theorem tmapUpdate : Statement .tmapUpdate := fun _ _ =>
  ⟨⟨"TMAP_UPDATE", false, 0xF, 0x4⟩, by simp [sbRows], rfl, rfl⟩

theorem tileDec (bank i : Nat) : Statement (.tileDec bank i) := fun _ _ =>
  ⟨⟨"TILE_DEC", false, 0xF, 0x5⟩, by simp [sbRows], rfl, rfl⟩

theorem beRedecode (bank i : Nat) : Statement (.beRedecode bank i) := fun _ _ =>
  ⟨⟨"BE_REDECODE", false, 0xF, 0x6⟩, by simp [sbRows], rfl, rfl⟩

theorem setScroll (bank : Nat) (x y : Int) : Statement (.setScroll bank x y) := fun _ _ =>
  ⟨⟨"SET_SCROLL", false, 0xF, 0x7⟩, by simp [sbRows], rfl, rfl⟩

theorem setTpen (bank pen : Nat) : Statement (.setTpen bank pen) := fun _ _ =>
  ⟨⟨"SET_TPEN", false, 0xF, 0x8⟩, by simp [sbRows], rfl, rfl⟩

theorem draw (bank : Nat) (clip : Clip) (opaqueMode : Bool) (priority pmask : Nat) :
    Statement (.draw bank clip opaqueMode priority pmask) := fun _ _ =>
  ⟨⟨"DRAW", false, 0xF, 0x9⟩, by simp [sbRows], rfl, rfl⟩

theorem drawOfs (bank : Nat) (clip : Clip) (opaqueMode : Bool) (priority pmask : Nat) (extraDx extraDy : Int) :
    Statement (.drawOfs bank clip opaqueMode priority pmask extraDx extraDy) := fun _ _ =>
  ⟨⟨"DRAW_OFS", false, 0xF, 0xA⟩, by simp [sbRows], rfl, rfl⟩

theorem drawSpecial (bank : Nat) (clip : Clip) (opaqueMode : Bool) (cct : ColorTable) (priority pmask : Nat)
    (planes : Planes) : Statement (.drawSpecial bank clip opaqueMode cct priority pmask planes) := fun _ _ =>
  ⟨⟨"DRAW_SPECIAL", false, 0xF, 0xB⟩, by simp [sbRows], rfl, rfl⟩

theorem roadPix (pixel lineColor : Word) : Statement (.roadPix pixel lineColor) := fun _ _ =>
  ⟨⟨"ROAD_PIX", false, 0xF, 0xC⟩, by simp [sbRows], rfl, rfl⟩

end Sys2Proof.Laws.TableMatch
end

