-- ==== Sys2Proof/Tests/Slice0.lean ====
section
/-! SUPPORT. The model's own tests: words and vectors of 95_test_vectors.md and of the worked examples of the rules, one
step each, and for every obligation with hypotheses a state and operands that meet them. -/

namespace Sys2Proof.Tests

open Sys2Proof Sys2Proof.Machine

/-! ## Small states -/

/-- The configuration of 95_test_vectors.md section 5. -/
def std : Config :=
  { layout := .standard, xOffs := 0, yOffs := 8, yInvert := false, roadRecolor := true, xOriginBias := 16,
    transparentMarker := 0x8000, byteOrder := .big }

def dbl : Config := { std with layout := .double }

/-- A block with no tile marked and nothing emitted (the state S0 of 95_test_vectors.md section 8). -/
def idle (cfg : Config) : State :=
  { cfg := cfg, vram := [], ctrl := ⟨0, 0, 0, 0, 0⟩, scrollx := ⟨0, 0⟩, scrolly := ⟨0, 0⟩, flip := false,
    tpen := ⟨none, none⟩, dirty := ⟨[], []⟩, needRestore := false,
    be := { scrollY := ⟨none, none⟩, scrollX := ⟨[], []⟩, flip := ⟨(false, false), (false, false)⟩, tpen := ⟨none, none⟩ },
    out := [], result := none, input := [] }

/-- `idle` with the cells given. -/
def withCells (cfg : Config) (cells : Memory) : State := (idle cfg).withVram cells

def nextOf : StepOutcome → Option State
  | .next t => some t
  | .fault _ => none
  | .refused _ => none

def faultOf? : StepOutcome → Option Fault
  | .next _ => none
  | .fault r => some r
  | .refused _ => none

/-- One field of the next state. -/
def look {α : Type} (o : StepOutcome) (f : State → α) : Option α := (nextOf o).map f

/-! ## WellFormed refuses, check by check (30_encoding.md R53, R55) -/

theorem test_wf_vramRd : (Instr.vramRd 0x7FFF).wf .standard = true ∧ (Instr.vramRd 0x8000).wf .standard = false := by
  decide
theorem test_wf_vramWr : (Instr.vramWr 0x8000 0 0).wf .double = false := by decide
theorem test_wf_xscrWr : (Instr.xscrWr 1 0 0).wf .standard = true ∧ (Instr.xscrWr 2 0 0).wf .standard = false := by decide
theorem test_wf_yscrWr : (Instr.yscrWr 2 0 0).wf .standard = false := by decide
theorem test_wf_ctrlWr : (Instr.ctrlWr 0 0 0).wf .standard = true ∧ (Instr.ctrlWr 1 0 0).wf .standard = false := by decide
theorem test_wf_stateLoad_length : (Instr.stateLoad ⟨0x7FFF, []⟩ [0, 0, 0, 0, 0]).wf .standard = false := by decide
theorem test_wf_stateLoad_ctrl : (Instr.stateLoad ⟨0x8000, []⟩ [0, 0, 0, 0]).wf .standard = false := by decide
theorem test_wf_stateLoad_order : (Instr.stateLoad ⟨0x8000, [(2, 1), (1, 1)]⟩ [0, 0, 0, 0, 0]).wf .standard = false := by
  decide
theorem test_wf_stateLoad_range : (Instr.stateLoad ⟨0x8000, [(0x8000, 1)]⟩ [0, 0, 0, 0, 0]).wf .standard = false := by
  decide
theorem test_wf_stateLoad_zero : (Instr.stateLoad ⟨0x8000, [(1, 0)]⟩ [0, 0, 0, 0, 0]).wf .standard = false := by decide
theorem test_wf_tileDec : (Instr.tileDec 0 0x1000).wf .standard = false ∧ (Instr.tileDec 0 0x1000).wf .double = true ∧
    (Instr.tileDec 0 0x2000).wf .double = false ∧ (Instr.tileDec 2 0).wf .double = false := by decide
theorem test_wf_beRedecode : (Instr.beRedecode 0 0x1000).wf .standard = false ∧ (Instr.beRedecode 2 0).wf .standard = false := by
  decide
theorem test_wf_setScroll : (Instr.setScroll 2 0 0).wf .standard = false := by decide
theorem test_wf_setTpen : (Instr.setTpen 2 0).wf .standard = false := by decide
theorem test_wf_draw : (Instr.draw 2 ⟨0, 0, 0, 0⟩ true 0 0).wf .standard = false := by decide
theorem test_wf_drawOfs : (Instr.drawOfs 2 ⟨0, 0, 0, 0⟩ true 0 0 0 0).wf .standard = false := by decide
theorem test_wf_drawSpecial :
    (Instr.drawSpecial 2 ⟨0, 0, 0, 0⟩ true SbRecord.zero.cct 0 0 SbRecord.zero.planes).wf .standard = false := rfl
theorem test_wf_memory : Memory.wf [(3, 7)] = true ∧ Memory.wf [(3, 0)] = false ∧ Memory.wf [(0x8000, 1)] = false ∧
    Memory.wf [(4, 1), (3, 1)] = false := by decide

/-! ## Decoding, words of 95_test_vectors.md sections 2, 7 and 8 and the selectors of R53 -/

/-- B1. -/
theorem test_decode_vramWr : decode (.bt 0x20123FFFFBEEF) = .ok (.vramWr 0x0123 0xBEEF 0xFFFF) := rfl
/-- B6: mask and data do not change places. -/
theorem test_decode_vramWr_lanes : decode (.bt 0x240030F0FABCD) = .ok (.vramWr 0x4003 0xABCD 0x0F0F) := rfl
/-- F1. -/
theorem test_decode_vramRd : decode (.bt 0x0012300000000) = .ok (.vramRd 0x0123) := rfl
/-- F2: mask and data of a read are ignored. -/
theorem test_decode_vramRd_ignores : decode (.bt 0x07FFFFFFFFFFF) = .ok (.vramRd 0x7FFF) := rfl
/-- F3. -/
theorem test_decode_xscrWr : decode (.bt 0x28001FFFF0010) = .ok (.xscrWr 1 0x0010 0xFFFF) := rfl
/-- B14. -/
theorem test_decode_yscrWr : decode (.bt 0x30001FFFF01FF) = .ok (.yscrWr 1 0x01FF 0xFFFF) := rfl
/-- B15. -/
theorem test_decode_ctrlWr : decode (.bt 0x3800000FF0001) = .ok (.ctrlWr 0 0x0001 0x00FF) := rfl
/-- F4, F8. -/
theorem test_decode_beyond_window : decode (.bt 0x28002FFFF0000) = .error .outOfRange ∧
    decode (.bt 0x30002FFFF0000) = .error .outOfRange ∧ decode (.bt 0x38001FFFF0000) = .error .outOfRange :=
  ⟨rfl, rfl, rfl⟩
/-- F5, F6, F7. -/
theorem test_decode_window_reads : decode (.bt 0x0800000000000) = .error .noSuchOperation ∧
    decode (.bt 0x1000000000000) = .error .noSuchOperation ∧ decode (.bt 0x1800000000000) = .error .noSuchOperation :=
  ⟨rfl, rfl, rfl⟩
theorem test_decode_reset : decode (.sb 0x0 .zero) = .ok .reset := rfl
theorem test_decode_stateSave : decode (.sb 0x1 .zero) = .ok .stateSave := rfl
theorem test_decode_stateLoad : decode (.sb 0x2 { SbRecord.zero with vramImage := ⟨1, [(0, 5)]⟩, ctrlImage := [6] }) =
    .ok (.stateLoad ⟨1, [(0, 5)]⟩ [6]) := rfl
theorem test_decode_restoreScroll : decode (.sb 0x3 .zero) = .ok .restoreScroll := rfl
theorem test_decode_tmapUpdate : decode (.sb 0x4 .zero) = .ok .tmapUpdate := rfl
theorem test_decode_tileDec : decode (.sb 0x5 { SbRecord.zero with bank := 1, i := 2 }) = .ok (.tileDec 1 2) := rfl
theorem test_decode_beRedecode : decode (.sb 0x6 { SbRecord.zero with bank := 1, i := 2 }) = .ok (.beRedecode 1 2) := rfl
theorem test_decode_setScroll : decode (.sb 0x7 { SbRecord.zero with bank := 1, x := 16, y := -8 }) =
    .ok (.setScroll 1 16 (-8)) := rfl
theorem test_decode_setTpen : decode (.sb 0x8 { SbRecord.zero with bank := 1, pen := 3 }) = .ok (.setTpen 1 3) := rfl
theorem test_decode_draw :
    decode (.sb 0x9 { SbRecord.zero with bank := 1, clip := ⟨0, 319, 16, 239⟩, opaqueMode := true, priority := 4, pmask := 5 }) =
      .ok (.draw 1 ⟨0, 319, 16, 239⟩ true 4 5) := rfl
theorem test_decode_drawOfs :
    decode (.sb 0xA { SbRecord.zero with priority := 4, pmask := 5, extraDx := -2, extraDy := 3 }) =
      .ok (.drawOfs 0 ⟨0, 0, 0, 0⟩ false 4 5 (-2) 3) := rfl
theorem test_decode_drawSpecial : decode (.sb 0xB { SbRecord.zero with opaqueMode := true, priority := 4, pmask := 5 }) =
    .ok (.drawSpecial 0 ⟨0, 0, 0, 0⟩ true SbRecord.zero.cct 4 5 SbRecord.zero.planes) := rfl
theorem test_decode_roadPix : decode (.sb 0xC { SbRecord.zero with pixel := 0x0004, lineColor := 0x0008 }) =
    .ok (.roadPix 0x0004 0x0008) := rfl
/-- F9. -/
theorem test_decode_reserved_selectors : decode (.sb 0xD .zero) = .error .noSuchOperation ∧
    decode (.sb 0xE .zero) = .error .noSuchOperation ∧ decode (.sb 0xF .zero) = .error .noSuchOperation :=
  ⟨rfl, rfl, rfl⟩

/-- B9's word from the encoder. -/
theorem test_encode_xscrWr : encode (.xscrWr 1 0x0010 0xFFFF) = .bt 0x28001FFFF0010 := rfl
/-- P1 step 1. -/
theorem test_encode_vramWr : encode (.vramWr 0x4004 0x4045 0xFFFF) = .bt 0x24004FFFF4045 := rfl

/-- B1 as a table word, and a selector as a table word. -/
theorem test_table_words : decodeTableWord 50 0x20123FFFFBEEF = some (.vramWr 0x0123 0xBEEF 0xFFFF) ∧
    decodeTableWord 56 0x28001FFFF0010 = some (.xscrWr 1 0x0010 0xFFFF) ∧ decodeTableWord 8 0x4 = some .tmapUpdate ∧
    decodeTableWord 4 0xD = none ∧ decodeTableWord 8 0x10 = none := ⟨rfl, rfl, rfl, rfl, rfl⟩

/-- P2 step 1 as the first operation after reset. -/
theorem test_first_step_after_reset :
    look (step (State.reset.withFetchWord 50 0x28000FFFF0010)) (fun t => (t.ctrl.xscr0, t.scrollx, t.input)) =
      some (0x0010, ⟨-16, 0⟩, []) := by decide

/-! ## Bus operations -/

/-- R70: reads of never-written VRAM. -/
theorem test_vramRd_reset : look (exec (.vramRd 0x7FFF) State.reset) (·.result) = some (some (.cell 0)) := by decide
/-- B2. -/
theorem test_vramRd : look (exec (.vramRd 0x0123) (withCells std [(0x0123, 0xBEEF)])) (·.result) = some (some (.cell 0xBEEF)) := by
  decide
/-- B6 and B5: the masked merge and its mark; mask 0 still marks. -/
theorem test_vramWr_masked :
    look (exec (.vramWr 0x4003 0xABCD 0x0F0F) (withCells std [(0x4003, 0x1234)])) (fun t => (t.vram, t.dirty, t.out)) =
      some ([(0x4003, 0x1B3D)], ⟨[], [1]⟩, [.markTileDirty .fg 1]) ∧
    look (exec (.vramWr 0x4003 0xABCD 0) (withCells std [(0x4003, 0x1234)])) (fun t => (t.vram, t.dirty)) =
      some ([(0x4003, 0x1234)], ⟨[], [1]⟩) := by decide
/-- B7 and B8: unassigned and row-scroll cells mark nothing in STANDARD layout, a tile in DOUBLE. -/
theorem test_vramWr_marks_by_layout :
    look (exec (.vramWr 0x7FFF 0xFFFF 0xFFFF) (idle std)) (·.dirty) = some ⟨[], []⟩ ∧
    look (exec (.vramWr 0x7FFF 0xFFFF 0xFFFF) (idle dbl)) (·.dirty) = some ⟨[], [0x1FFF]⟩ ∧
    look (exec (.vramWr 0x2003 7 0xFFFF) (idle std)) (·.dirty) = some ⟨[], []⟩ ∧
    look (exec (.vramWr 0x2003 7 0xFFFF) (idle dbl)) (·.dirty) = some ⟨[3], []⟩ := by decide
/-- B11. -/
theorem test_xscrWr : look (exec (.xscrWr 0 0x8000 0xFF00) ((idle std).withCtrl ⟨0x12, 0, 0, 0, 0⟩))
    (fun t => (t.ctrl.xscr0, t.scrollx.bank0)) = some (0x8012, -32786) := by decide
/-- B18: a write with mask 0 loses the override of x and keeps that of y. -/
theorem test_xscrWr_override : look (exec (.xscrWr 0 0x1234 0)
      (((idle std).withCtrl ⟨0x10, 0, 0, 0, 0⟩).withScrollx ⟨-3, 0⟩ |>.withScrolly ⟨4, 0⟩))
    (fun t => (t.scrollx.bank0, t.scrolly.bank0)) = some (-16, 4) := by decide
/-- B12, B13. -/
theorem test_yscrWr : look (exec (.yscrWr 0 5 0xFFFF) (idle std)) (·.scrolly) = some ⟨-5, 0⟩ ∧
    look (exec (.yscrWr 0 5 0xFFFF) (idle { std with yInvert := true })) (·.scrolly) = some ⟨5, 0⟩ := by decide
/-- B14. -/
theorem test_yscrWr_bank1 : look (exec (.yscrWr 1 0x01FF 0xFFFF) (idle std)) (fun t => (t.ctrl, t.scrolly)) =
    some (⟨0, 0, 0, 0x01FF, 0⟩, ⟨0, -511⟩) := by decide
/-- B15. -/
theorem test_ctrlWr : look (exec (.ctrlWr 0 1 0x00FF) (idle std)) (fun t => (t.ctrl.control, t.flip, t.out, t.be.flip)) =
    some (1, true, [.setFlip .bg true true, .setFlip .fg true true], ⟨(true, true), (true, true)⟩) := by decide
/-- B17. -/
theorem test_ctrlWr_clears : look (exec (.ctrlWr 0 0xFFFE 0xFFFF) (((idle std).withCtrl ⟨0, 0, 0, 0, 1⟩).withFlip true))
    (fun t => (t.ctrl.control, t.flip)) = some (0xFFFE, false) := by decide

/-! ## Address classification (95_test_vectors.md section 3) -/

theorem test_classify_standard : [0x0000, 0x0001, 0x1FFF, 0x2000, 0x20FF, 0x2100, 0x3FFF].map (classify .standard) =
    [.tile .bg 0, .tile .bg 0, .tile .bg 0xFFF, .rowScroll .bg 0, .rowScroll .bg 255, .unassigned, .unassigned] := by decide
theorem test_classify_standard_fg : [0x4000, 0x5FFE, 0x5FFF, 0x6000, 0x60FF, 0x6100, 0x7FFF].map (classify .standard) =
    [.tile .fg 0, .tile .fg 0xFFF, .tile .fg 0xFFF, .rowScroll .fg 0, .rowScroll .fg 255, .unassigned, .unassigned] := by
  decide
theorem test_classify_double : [0x0001, 0x1FFF, 0x2000, 0x3FFF, 0x4000, 0x5FFF, 0x6000, 0x7FFF].map (classify .double) =
    [.tile .bg 1, .tile .bg 0x1FFF, .tile .bg 0, .tile .bg 0x1FFF, .tile .fg 0, .tile .fg 0x1FFF, .tile .fg 0,
     .tile .fg 0x1FFF] := by decide
theorem test_tile_addresses : attrAddr .standard .bg 0xFFF = 0x1FFE ∧ codeAddr .standard .fg 2 = 0x4005 ∧
    codeAddr .double .bg 7 = 0x2007 ∧ codeAddr .double .fg 0x1FFF = 0x7FFF := by decide

/-! ## Tile decoder -/

/-- T5, T6, T7, T8: ignored bits, and which bit is flip-x. -/
theorem test_tileRecord : tileRecordOf 0x3E00 0xC000 = ⟨0, 0, false, false⟩ ∧
    tileRecordOf 0xFFFF 0xFFFF = ⟨0x3FFF, 0x1FF, true, true⟩ ∧ tileRecordOf 0x4000 1 = ⟨1, 0, true, false⟩ ∧
    tileRecordOf 0x8000 1 = ⟨1, 0, false, true⟩ := by decide
/-- R81's example (T3) and S7 (P4 step 3). -/
theorem test_tileDec : look (exec (.tileDec 1 2) (withCells std [(0x4004, 0x4045), (0x4005, 0xC123)])) (·.result) =
      some (some (.tile ⟨0x0123, 0x045, true, false⟩)) ∧
    look (exec (.tileDec 0 7) (withCells dbl [(7, 0xC1FF), (0x2007, 0x7FFF)])) (·.result) =
      some (some (.tile ⟨0x3FFF, 0x1FF, true, true⟩)) := by decide
/-- F11, F12. -/
theorem test_tileDec_range : faultOf? (exec (.tileDec 0 0x1000) (idle std)) = some .outOfRange ∧
    faultOf? (exec (.tileDec 0 0x1000) (idle dbl)) = none ∧
    faultOf? (exec (.tileDec 0 0x2000) (idle dbl)) = some .outOfRange := by decide
/-- P1 step 6. -/
theorem test_beRedecode :
    look (exec (.beRedecode 1 2) ((withCells std [(0x4004, 0x8145), (0x4005, 0xC123)]).withDirty ⟨[2], [1, 2]⟩))
      (fun t => (t.result, t.dirty)) = some (some (.tile ⟨0x0123, 0x145, false, true⟩), ⟨[2], [1]⟩) := by decide

/-! ## Scroll-table indexer -/

/-- R90's example. -/
theorem test_restoreScroll : look (exec .restoreScroll (((idle std).withCtrl ⟨0x0010, 0, 0x0005, 0x01FF, 1⟩).withNeedRestore true))
    (fun t => (t.scrollx, t.scrolly, t.flip, t.needRestore)) = some (⟨-16, 0⟩, ⟨-5, -511⟩, true, false) := by decide
/-- The same registers with Y_INVERT (section 4). -/
theorem test_restoreScroll_inverted :
    look (exec .restoreScroll ((idle { std with yInvert := true }).withCtrl ⟨0x0010, 0, 0x0005, 0x01FF, 1⟩)) (·.scrolly) =
      some ⟨5, 511⟩ := by decide
/-- The state of I2 to I5: `scrollx = -16`, `scrolly = -5`, entries 3 at 0 and 0x01FF at 255. -/
def scrolled : State :=
  ((withCells std [(0x2000, 3), (0x20FF, 0x01FF)]).withScrollx ⟨-16, 0⟩).withScrolly ⟨-5, 0⟩
/-- I2, I4, I5, I8: rows and values. -/
theorem test_row_commands : (scrolled.targetRow .bg 0, scrolled.rowValue .bg 0) = (507, -19) ∧
    (scrolled.targetRow .bg 5, scrolled.rowValue .bg 5) = (0, -16) ∧
    (scrolled.targetRow .bg 255, scrolled.rowValue .bg 255) = (250, -527) ∧
    ((idle std).withScrolly ⟨0, 300⟩).targetRow .fg 255 = 43 := by decide
/-- P2 step 6: 514 commands, and some of them. -/
theorem test_tmapUpdate_standard : look (exec .tmapUpdate scrolled) (fun t =>
      (t.out.length, [0, 1, 2, 257, 513].map fun k => t.out[k]?)) =
    some (514, [some (.setScrollY .bg (-5)), some (.setScrollY .fg 0), some (.setScrollX .bg 507 (-19)),
      some (.setScrollX .bg 250 (-527)), some (.setScrollX .fg 255 0)]) := by decide +kernel
/-- R94's example, P4 step 5: the word at 0x2007 is not a scroll entry. -/
theorem test_tmapUpdate_double :
    look (exec .tmapUpdate (((withCells dbl [(0x2007, 0x7FFF)]).withScrollx ⟨-16, 0⟩).withScrolly ⟨-5, 0⟩)) (·.out) =
      some [.setScrollY .bg (-5), .setScrollY .fg 0, .setScrollX .bg 0 (-16), .setScrollX .fg 0 0] := by decide
/-- R95's example. -/
theorem test_setScroll : look (exec (.setScroll 0 0x10 (-8)) (idle std)) (fun t => (t.scrollx, t.scrolly, t.ctrl)) =
    some (⟨-16, 0⟩, ⟨-8, 0⟩, ⟨0, 0, 0, 0, 0⟩) ∧ faultOf? (exec (.setScroll 2 0 0) (idle std)) = some .outOfRange := by decide
/-- R96's example. -/
theorem test_setTpen : look (exec (.setTpen 1 0) (idle std)) (fun t => (t.tpen, t.be.tpen, t.out)) =
    some (⟨none, some 0⟩, ⟨none, some 0⟩, [.setTransparentPen .fg 0]) := by decide

/-! ## Compositor -/

/-- P2 step 7. -/
theorem test_draw : look (exec (.draw 0 ⟨0, 319, 0, 239⟩ true 0 0) ((idle std).withFlip true)) (·.out) =
    some [.draw .bg ⟨0, 319, 0, 239⟩ true 0 0 0 8 true] := by decide
/-- R102's example. -/
theorem test_drawOfs : look (exec (.drawOfs 0 ⟨0, 319, 0, 239⟩ true 0 0 (-2) 3) (idle std)) (·.out) =
    some [.draw .bg ⟨0, 319, 0, 239⟩ true 0 0 (-2) 11 false] := by decide

/-- The oracle planes of 95_test_vectors.md section 5. -/
def planes : Planes :=
  { pix := Vector.replicate 512 ⟨⟨(List.range 512).map fun c => 0x0200 + BitVec.ofNat 16 (c % 16)⟩, by simp⟩
    flag := Vector.replicate 512 ⟨⟨(List.range 512).map fun c => decide (c % 16 ≠ 6)⟩, by simp⟩ }

/-- The color table of section 5. -/
def cct : ColorTable :=
  ⟨⟨(List.range 256).map fun k => if k = 8 then 0x0008 else if k = 9 then 0xFFE0 else if k = 2 then 0x0012 else 0⟩, by simp⟩

/-- The state of section 5. -/
def road : State :=
  ((withCells std [(0x2002, 0x01FF), (0x21FC, 0x0002)]).withScrollx ⟨-16, 0⟩).withScrolly ⟨-5, 0⟩

/-- Lines A and B as one call. -/
theorem test_drawSpecial_lines_AB :
    look (exec (.drawSpecial 0 ⟨0, 5, 10, 11⟩ false cct 0 0 planes) road) (·.out) =
      some [.scanline 10 [0x0204, 0x0204, 0x0203, 0x0204, 0x0205, 0x8000] true 0 0,
        .scanline 11 [0x020A, 0x020B, 0x020C, 0x020D, 0x020E, 0x020F] true 0 0] := by decide +kernel
/-- Line C (index above 255, columns that wrap), the empty clip of section 5, and F13. -/
theorem test_drawSpecial_line_C_empty_double :
    look (exec (.drawSpecial 0 ⟨0, 7, 4, 4⟩ false cct 0 0 planes) road) (·.out) =
      some [.scanline 4 [0x020E, 0x020F, 0x0200, 0x0201, 0x0202, 0x0203, 0x0209, 0x020A] true 0 0] ∧
    look (exec (.drawSpecial 0 ⟨0, 5, 11, 10⟩ false cct 0 0 planes) road) (·.out) = some [] ∧
    faultOf? (exec (.drawSpecial 0 ⟨0, 5, 0, 0⟩ true cct 0 0 planes) (idle dbl)) = some .noRowTable := by decide +kernel

/-- V1, V2, V4, V5, V8, V9, V11, V12. -/
theorem test_roadPix_plain : roadPix 0x0004 0x0008 = 0x0004 ∧ roadPix 0x0004 0x0010 = 0x0009 ∧ roadPix 0x0005 0x0002 = 0x000A ∧
    roadPix 0x0005 0x0010 = 0x0005 ∧ roadPix 0x0122 0x0018 = 0x0129 ∧ roadPix 0x0123 0x0008 = 0x0123 ∧
    roadPix 0x0123 0x0014 = 0x0129 ∧ roadPix 0x0120 0x001F = 0x0120 := by decide
/-- V15, V19, V20, V25, V28, V29, V31, V33, and V17 as an operation. -/
theorem test_roadPix_tunnel : roadPix 0x8124 0x0000 = 0x0124 ∧ roadPix 0x0121 0xFFE0 = 0x012B ∧ roadPix 0x0121 0xFFE8 = 0x012E ∧
    roadPix 0x0126 0xFFE0 = 0x0130 ∧ roadPix 0xFFF6 0xFFFF = 0x0000 ∧ roadPix 0x0124 0xFFC0 = 0x0124 ∧
    roadPix 0x0124 0xFFF2 = 0x012E ∧ roadPix 0x7FF5 0xFFE0 = 0x7FFF ∧
    look (exec (.roadPix 0x0124 0xFFE0) (idle std)) (·.result) = some (some (.pixel 0x012E)) := by decide

/-! ## Lifecycle -/

/-- P3 step 2, the fields it names. -/
theorem test_reset : look (exec .reset (scrolled.withCtrl ⟨0x10, 0, 5, 0, 1⟩))
    (fun t => (t.vram, t.ctrl, t.caches, t.needRestore)) =
      some ([], ⟨0, 0, 0, 0, 0⟩, ⟨⟨0, 0⟩, ⟨0, 0⟩, false⟩, false) := by decide
/-- P3 step 1. -/
theorem test_stateSave : look (exec .stateSave (scrolled.withCtrl ⟨0x10, 0, 5, 0, 1⟩)) (·.result) =
    some (some (.images ⟨0x8000, [(0x2000, 3), (0x20FF, 0x01FF)]⟩ [0x10, 0, 5, 0, 1])) := by decide
/-- P3 step 3: registers and cells of the image, caches stale. -/
theorem test_stateLoad : look (exec (.stateLoad ⟨0x8000, [(0x2000, 3)]⟩ [0x10, 0, 5, 0, 1]) (idle std))
    (fun t => (t.vram, t.ctrl, t.scrollx, t.flip, t.needRestore)) =
      some ([(0x2000, 3)], ⟨0x10, 0, 5, 0, 1⟩, ⟨0, 0⟩, false, true) := by decide
/-- F16, and an image of 32767 words. -/
theorem test_stateLoad_badImage : faultOf? (exec (.stateLoad ⟨0x8000, []⟩ [0, 0, 0, 0]) (idle std)) = some .badImage ∧
    faultOf? (exec (.stateLoad ⟨0x7FFF, []⟩ [0, 0, 0, 0, 0]) (idle std)) = some .badImage := by decide

/-- The window between STATE_LOAD and RESTORE_SCROLL. -/
def pending : State := (idle std).withNeedRestore true

/-- F14, F15, F17. -/
theorem test_restorePending : faultOf? (exec (.draw 0 ⟨0, 0, 0, 0⟩ true 0 0) pending) = some .restorePending ∧
    faultOf? (exec (.drawSpecial 2 ⟨0, 0, 0, 0⟩ true cct 0 0 planes) pending) = some .outOfRange ∧
    look (exec (.vramRd 0) pending) (·.result) = some (some (.cell 0)) := by decide +kernel

/-! ## Text and pseudo-operations (R58, R59) -/

theorem test_text : instrText "cct" "img" (.vramWr 0x0123 0xBEEF 0xFFFF) = "VRAM_WR 0x0123, 0xBEEF, 0xFFFF" ∧
    instrText "cct" "img" (.drawSpecial 0 ⟨0, 319, 16, 239⟩ true cct 0 0 planes) =
      "DRAW_SPECIAL 0, [0..319, 16..239], opaque, cct, 0, 0" := by decide +kernel
theorem test_pseudo : expandPseudo .standard (.tileWr 1 2 0x4045 0xC123) =
      some [.vramWr 0x4004 0x4045 0xFFFF, .vramWr 0x4005 0xC123 0xFFFF] ∧
    expandPseudo .double (.rowscrWr 0 0 1) = none ∧ expandPseudo .standard (.rowscrWr 1 255 1) = some [.vramWr 0x60FF 1 0xFFFF] ∧
    expandPseudo .standard (.vramWrHi 5 0xAB) = some [.vramWr 5 0xAB00 0xFF00] := by decide

/-! ## Witnesses: for each obligation with hypotheses, a state and operands that meet them -/

theorem test_witness_VramReadReturnsTheCell : 0x7FFF < 0x8000 ∧ (nextOf (exec (.vramRd 0x7FFF) (idle std))).isSome ∧
    faultOf? (exec (.vramRd 0x8000) (idle std)) = some .outOfRange := by decide
theorem test_witness_VramWriteMergesAndMarksItsTile : (nextOf (exec (.vramWr 0x7FFF 1 1) (idle std))).isSome ∧
    classify std.layout 0x1FFF = .tile .bg 0xFFF ∧ (∀ b i, classify std.layout 0x2000 ≠ .tile b i) ∧
    faultOf? (exec (.vramWr 0x8000 0 0) (idle std)) = some .outOfRange := by
  refine ⟨by decide, by decide, ?_, by decide⟩
  intro b i h
  cases h
theorem test_witness_XScrollWriteUpdatesRegisterAndCache : faultOf? (exec (.xscrWr 2 0 0) (idle std)) = some .outOfRange ∧
    (nextOf (exec (.xscrWr 1 0 0) (idle std))).isSome := by decide
theorem test_witness_YScrollWriteUpdatesRegisterAndCache : faultOf? (exec (.yscrWr 2 0 0) (idle std)) = some .outOfRange ∧
    (idle std).cfg.yInvert = false ∧ (idle { std with yInvert := true }).cfg.yInvert = true := by decide
theorem test_witness_ControlWriteSetsFlipOfBothBanks : faultOf? (exec (.ctrlWr 1 0 0) (idle std)) = some .outOfRange := by decide
theorem test_witness_ByteWritesFillTheirLanes :
    look (exec (platformByteWrite .big 0xFFFE 0xAB) (withCells std [(0x7FFF, 0x1234)])) (·.vram) = some [(0x7FFF, 0xAB34)] ∧
    look (exec (platformByteWrite .little 0xFFFE 0xAB) (withCells std [(0x7FFF, 0x1234)])) (·.vram) = some [(0x7FFF, 0x12AB)] := by
  decide
theorem test_witness_RegionsFollowThePartitionTables : classify .standard 0x1FFF = .tile .bg 0xFFF ∧
    classify .standard 0x2000 = .rowScroll .bg 0 ∧ classify .standard 0x2100 = .unassigned ∧
    classify .standard 0x6100 = .unassigned ∧ classify .double 0x3FFF = .tile .bg 0x1FFF ∧
    classify .double 0x4000 = .tile .fg 0 := by decide
theorem test_witness_ClassifyInvertsTheTileAddresses : (0x5FFF : Nat) < 0x8000 ∧
    classify .standard 0x5FFF = .tile .fg 0xFFF ∧ codeAddr .standard .fg 0xFFF = 0x5FFF ∧
    classify .standard 0x60FF = .rowScroll .fg 255 := by decide
theorem test_witness_WritesThatChangeATileMarkIt : ∃ t, exec (.vramWr 0x1FFF 1 1) (idle std) = .next t ∧
    0xFFF < std.layout.nTiles ∧ t.decodeTile .bg 0xFFF ≠ (idle std).decodeTile .bg 0xFFF ∧
    0x1FFF ≠ attrAddr std.layout .bg 0 ∧ 0x1FFF ≠ codeAddr std.layout .bg 0 := ⟨_, rfl, by decide⟩
theorem test_witness_TileDecodeReadsItsTwoCells : 0xFFF < (idle std).cfg.layout.nTiles ∧ (idle std).cfg.layout = .standard ∧
    0x1FFF < (idle dbl).cfg.layout.nTiles ∧ (idle dbl).cfg.layout = .double := by decide
theorem test_witness_RedecodeAnswersTheRecordAndClearsOneMark : 0xFFF < (idle std).cfg.layout.nTiles ∧
    0x1FFF < (idle dbl).cfg.layout.nTiles := by decide
theorem test_witness_TileWriteSetsTheRecord : 0x1FFF < (idle dbl).cfg.layout.nTiles ∧
    expandPseudo .double (.tileWr 1 0x1FFF 1 2) = some [.vramWr 0x5FFF 1 0xFFFF, .vramWr 0x7FFF 2 0xFFFF] := by decide
theorem test_witness_RestoreScrollRebuildsTheCaches : (idle std).cfg.yInvert = false ∧
    (idle { std with yInvert := true }).cfg.yInvert = true ∧ (idle std).CachesMatch ∧
    scrolled.cfg = (idle std).cfg ∧ scrolled.ctrl = (idle std).ctrl ∧ scrolled.scrollx ≠ (idle std).scrollx := by
  refine ⟨rfl, rfl, ?_, rfl, rfl, by decide⟩
  show (idle std).caches = derived (idle std).cfg (idle std).ctrl
  decide
theorem test_witness_TmapUpdateLatchesTheRowTable : scrolled.cfg.layout = .standard ∧ scrolled.needRestore = false ∧
    (((255 : Nat) : Int) + scrolled.scrolly.get .bg) % 512 = 250 ∧
    (∀ j, j < 256 → 251 ≠ (((j : Nat) : Int) + scrolled.scrolly.get .bg) % 512) := by
  refine ⟨rfl, rfl, by decide, ?_⟩
  intro j hj
  show (251 : Int) ≠ ((j : Int) + (-5)) % 512
  omega
theorem test_witness_TmapUpdateEmitsInOrder : scrolled.cfg.layout = .standard ∧ scrolled.needRestore = false := by decide
theorem test_witness_TmapUpdateDoubleIsUniform : (idle dbl).cfg.layout = .double ∧ (idle dbl).needRestore = false := by decide
theorem test_witness_ScrollOverrideIsLostOnRegisterWrite : (0 : Word) = 0 ∧ (idle std).cfg.yInvert = false ∧
    (idle { std with yInvert := true }).cfg.yInvert = true := by decide
theorem test_witness_DrawsEmitOneRecord : (idle std).needRestore = false := by decide
theorem test_witness_DrawSpecialEmitsTheClosedForm : road.needRestore = false ∧ road.cfg.layout = .standard ∧
    (nextOf (exec (.drawSpecial 1 ⟨5, 4, 0, 3⟩ true cct 0 0 planes) road)).isSome := by decide +kernel
theorem test_witness_DrawSpecialReadsOnlyCachesAndVram : (road.withFlip true).cfg = road.cfg ∧
    (∀ a, (road.withFlip true).readVram a = road.readVram a) ∧
    (nextOf (exec (.drawSpecial 0 ⟨0, 0, 0, 0⟩ true cct 0 0 planes) road)).isSome ∧
    (nextOf (exec (.drawSpecial 0 ⟨0, 0, 0, 0⟩ true cct 0 0 planes) (road.withFlip true))).isSome := by
  refine ⟨rfl, fun a => rfl, rfl, rfl⟩
theorem test_witness_DrawReadsOnlyFlipAndOffsets : scrolled.cfg = (idle std).cfg ∧ scrolled.flip = (idle std).flip ∧
    (nextOf (exec (.draw 1 ⟨0, 5, 0, 5⟩ false 0 0) (idle std))).isSome ∧
    (nextOf (exec (.draw 1 ⟨0, 5, 0, 5⟩ false 0 0) scrolled)).isSome ∧
    (nextOf (exec (.drawOfs 1 ⟨0, 5, 0, 5⟩ false 0 0 1 2) (idle std))).isSome ∧
    (nextOf (exec (.drawOfs 1 ⟨0, 5, 0, 5⟩ false 0 0 1 2) scrolled)).isSome := by decide
theorem test_witness_RoadPixFollowsTheTable : (0x0122 : Word).toNat % 16 = 2 ∧ (0x0123 : Word).toNat % 16 = 3 ∧
    (0x0124 : Word).toNat % 16 = 4 ∧ (0x0125 : Word).toNat % 16 = 5 ∧ 6 ≤ (0x0126 : Word).toNat % 16 := by decide
theorem test_witness_RoadPixKeepsTheBaseField : (0x8124 : Word).toNat % 16 = 4 ∧ (0xFFF5 : Word).toNat % 16 = 5 ∧
    (0xFFE8 : Word) &&& 0xFFE0 = 0xFFE0 := by decide
theorem test_witness_StateLoadReplacesBothArrays : (⟨0x8000, [(0x7FFF, 1)]⟩ : VramImage).length = 0x8000 ∧
    ([1, 2, 3, 4, 5] : List Word).length = 5 := by decide
theorem test_witness_SaveLoadRestoreRoundTrip : scrolled.vram.wf = true ∧ (idle std).cfg = scrolled.cfg ∧ (idle std).CachesMatch := by
  refine ⟨by decide, rfl, ?_⟩
  show (idle std).caches = derived (idle std).cfg (idle std).ctrl
  decide
theorem test_witness_OperationsFaultExactlyForTheListedCauses : firstCause (.vramRd 0x7FFF) (idle std) = none ∧
    firstCause (.vramRd 0x8000) (idle std) = some .outOfRange ∧ firstCause .tmapUpdate pending = some .restorePending ∧
    firstCause (.drawSpecial 1 ⟨0, 0, 0, 0⟩ true cct 0 0 planes) (idle dbl) = some .noRowTable ∧
    firstCause (.stateLoad ⟨3, []⟩ [0, 0, 0, 0, 0]) (idle std) = some .badImage := by decide +kernel
theorem test_witness_NoDrawWhileARestoreIsPending : pending.needRestore = true := by decide

/-- Two bus words, a register write and a read. -/
def busy : State := (idle std).withInput [.bt 0x28001FFFF0010, .bt 0x0012300000000]

theorem test_witness_BusTrafficNeverFaults : ∀ p ∈ busy.input, ∃ row ∈ btRows, row.covers p = true := by decide
theorem test_witness_ConfigurationNeverChanges : (nextOf (step busy)).isSome := by decide
theorem test_witness_OnlyTheseWriteVramAndRegisters : ∃ t u, exec (.vramWr 0 1 1) (idle std) = .next t ∧
    t.readVram 0 ≠ (idle std).readVram 0 ∧ exec (.xscrWr 0 1 1) (idle std) = .next u ∧ u.ctrl ≠ (idle std).ctrl :=
  ⟨_, _, rfl, by decide, rfl, by decide⟩
theorem test_witness_OnlyTheseWriteCachesFlipAndPens : ∃ t u v w, exec (.setScroll 0 1 1) (idle std) = .next t ∧
    t.scrollx ≠ (idle std).scrollx ∧ exec (.yscrWr 1 1 1) (idle std) = .next u ∧ u.scrolly ≠ (idle std).scrolly ∧
    exec (.ctrlWr 0 1 1) (idle std) = .next v ∧ v.flip ≠ (idle std).flip ∧
    exec (.setTpen 0 7) (idle std) = .next w ∧ w.tpen ≠ (idle std).tpen :=
  ⟨_, _, _, _, rfl, by decide, rfl, by decide, rfl, by decide, rfl, by decide⟩
theorem test_witness_OnlyLoadSetsThePendingRestore : ∃ t u v,
    exec (.stateLoad ⟨0x8000, []⟩ [0, 0, 0, 0, 0]) (idle std) = .next t ∧ exec .restoreScroll pending = .next u ∧
    exec (.vramRd 0) pending = .next v := ⟨_, _, _, rfl, rfl, rfl⟩
theorem test_witness_MarksGoOnlyByRedecode : ∃ t, exec (.beRedecode 0 3) ((idle std).withDirty ⟨[3], []⟩) = .next t ∧
    3 < std.layout.nTiles ∧ ((idle std).withDirty ⟨[3], []⟩).isDirty .bg 3 ∧ ¬ t.isDirty .bg 3 :=
  ⟨_, rfl, by decide, by decide, by decide⟩
theorem test_witness_LatchesFollowTheCommands : ∃ t, exec (.setTpen 1 4) (idle std) = .next t ∧
    (Instr.setTpen 1 4) ≠ .reset := ⟨_, rfl, by decide⟩
theorem test_witness_OnlyTmapUpdatePublishesScroll : ∃ t, exec (.setScroll 1 4 4) (idle std) = .next t ∧
    (Instr.setScroll 1 4 4) ≠ .tmapUpdate ∧ (Instr.setScroll 1 4 4) ≠ .reset := ⟨_, rfl, by decide, by decide⟩
theorem test_witness_CacheRuleIsKept : (∃ t, exec (.xscrWr 1 4 4) (idle std) = .next t) ∧ (idle std).CachesMatch ∧
    (∃ u, exec .restoreScroll scrolled = .next u) := by
  refine ⟨⟨_, rfl⟩, ?_, ⟨_, rfl⟩⟩
  show (idle std).caches = derived (idle std).cfg (idle std).ctrl
  decide
theorem test_witness_StepKeepsLegalStates : busy.Legal ∧ (nextOf (step busy)).isSome := by
  refine ⟨⟨by decide, ?_, ?_, ?_, ?_, fun _ => by decide⟩, by decide⟩ <;> intro b <;> cases b <;> decide
theorem test_witness_DecodeAfterEncodeIsIdentity : (Instr.vramWr 0x7FFF 0xFFFF 0xFFFF).wf .standard = true ∧
    (Instr.tileDec 1 0x1FFF).wf .double = true ∧ (Instr.stateLoad ⟨0x8000, [(0, 1), (0x7FFF, 2)]⟩ [0, 0, 0, 0, 0]).wf .double = true ∧
    (Instr.ctrlWr 0 1 2).wf .double = true := by decide
theorem test_witness_BusWordsDecodeByTheTable : decode (.bt 0x07FFFFFFFFFFF) = .ok (.vramRd 0x7FFF) ∧
    decode (.bt 0x28001FFFF0010) = .ok (.xscrWr 1 0x0010 0xFFFF) ∧
    decode (.bt 0x28002FFFF0000) = .error .outOfRange ∧
    (∀ row ∈ btRows, row.covers (.bt 0x28002FFFF0000) = false) := ⟨rfl, rfl, rfl, by decide⟩
theorem test_witness_ReservedTransfersFault : btRw 0x0800000000000 = 0 ∧ btWin 0x0800000000000 ≠ 0 ∧
    btRw 0x28002FFFF0000 = 1 ∧ btWin 0x28002FFFF0000 = 1 ∧ btOffset 0x28002FFFF0000 = 2 ∧
    btRw 0x38001FFFF0000 = 1 ∧ btWin 0x38001FFFF0000 = 3 ∧ btOffset 0x38001FFFF0000 = 1 ∧ 13 ≤ (0xD : BitVec 4).toNat ∧
    faultOf? (step ((idle std).withInput [.sb 0xD .zero])) = some .noSuchOperation := by decide +kernel
theorem test_witness_StepRunsTheNextTransfer : busy.input = [.bt 0x28001FFFF0010, .bt 0x0012300000000] ∧
    decode (.bt 0x28001FFFF0010) = .ok (.xscrWr 1 0x0010 0xFFFF) ∧ (idle std).input = [] := ⟨rfl, rfl, rfl⟩

end Sys2Proof.Tests
end

section
/-! PROOFS. The address translation of 20_memory.md: per layout, the cells that `classify` gives to a bank's tile table
and to its row-scroll table (R32, R33, R36), and from these that it inverts the forward addresses (R34, R35, R37). -/

namespace Sys2Proof.Machine

@[simp] theorem bankBase_bg : bankBase .bg = 0 := rfl
@[simp] theorem bankBase_fg : bankBase .fg = 0x4000 := rfl

/-- A bank's tile table in STANDARD layout, two cells a tile (R32, R34). -/
theorem classify_standard_eq_tile (a : Nat) (b : Bank) (i : Nat) :
    classify .standard a = .tile b i ↔
      bankBase b ≤ a ∧ a < bankBase b + 0x2000 ∧ (a - bankBase b) / 2 = i := by
  cases b <;> simp only [classify, bankBase_bg, bankBase_fg]
  all_goals split_ifs <;> simp <;> omega

/-- A bank's row-scroll table in STANDARD layout, one cell an entry (R32, R37). -/
theorem classify_standard_eq_rowScroll (a : Nat) (b : Bank) (j : Nat) :
    classify .standard a = .rowScroll b j ↔
      rowtabBase b ≤ a ∧ a < rowtabBase b + 0x100 ∧ a - rowtabBase b = j := by
  cases b <;> simp only [classify, rowtabBase, bankBase_bg, bankBase_fg]
  all_goals split_ifs <;> simp <;> omega

/-- The cells STANDARD layout leaves unassigned (R32). -/
theorem classify_standard_eq_unassigned (a : Nat) :
    classify .standard a = .unassigned ↔ (0x2100 ≤ a ∧ a < 0x4000) ∨ 0x6100 ≤ a := by
  simp only [classify]
  split_ifs <;> simp <;> omega

/-- A bank's tile table in DOUBLE layout: the attribute cells, then the code cells in the same order (R33, R35). -/
theorem classify_double_eq_tile {a : Nat} (ha : a < 0x8000) (b : Bank) (i : Nat) :
    classify .double a = .tile b i ↔
      bankBase b ≤ a ∧ a < bankBase b + 0x4000 ∧ (a - bankBase b) % 0x2000 = i := by
  cases b <;> simp only [classify, bankBase_bg, bankBase_fg]
  all_goals split_ifs <;> simp <;> omega

/-- DOUBLE layout has no row-scroll table (R33). -/
theorem classify_double_ne_rowScroll (a : Nat) (b : Bank) (j : Nat) :
    classify .double a ≠ .rowScroll b j := by
  simp only [classify]
  split_ifs <;> simp

/-- R36 inverts R34 and R35: tile `i` owns exactly its attribute and its code cell. -/
theorem classify_eq_tile_iff_addr (lay : Layout) {a : Nat} (ha : a < 0x8000) (b : Bank) (i : Nat) :
    classify lay a = .tile b i ↔ i < lay.nTiles ∧ (a = attrAddr lay b i ∨ a = codeAddr lay b i) := by
  cases lay with
  | standard =>
    rw [classify_standard_eq_tile]
    simp only [attrAddr, codeAddr, Layout.nTiles]
    omega
  | double =>
    rw [classify_double_eq_tile ha]
    simp only [attrAddr, codeAddr, Layout.nTiles]
    omega

/-- R36 inverts R37: entry `j` of a row-scroll table is the one cell `rowtab_base + j`, in STANDARD layout only. -/
theorem classify_eq_rowScroll_iff_addr (lay : Layout) (a : Nat) (b : Bank) (j : Nat) :
    classify lay a = .rowScroll b j ↔ lay = .standard ∧ j < 256 ∧ a = rowtabBase b + j := by
  cases lay with
  | standard =>
    rw [classify_standard_eq_rowScroll]
    simp only [true_and]
    omega
  | double => simp [classify_double_ne_rowScroll]

/-- Settles O8: each range of the partition tables R32 and R33 is the one its `classify_…_eq_…` lemma names, and every
cell of it has a tile or entry index. -/
theorem regionsFollowThePartitionTables : Obligations.RegionsFollowThePartitionTables := by
  intro a ha
  simp only [classify_standard_eq_tile, classify_standard_eq_rowScroll, classify_standard_eq_unassigned,
    classify_double_eq_tile ha, exists_and_left, exists_eq', and_true, true_and, rowtabBase, bankBase_bg, bankBase_fg]
  omega

/-- Settles O9: both tables of both layouts are inverted, tile cells by `classify_eq_tile_iff_addr` and row-scroll cells
by `classify_eq_rowScroll_iff_addr`. -/
theorem classifyInvertsTheTileAddresses : Obligations.ClassifyInvertsTheTileAddresses := fun lay a ha b =>
  ⟨classify_eq_tile_iff_addr lay ha b, classify_eq_rowScroll_iff_addr lay a b⟩

end Sys2Proof.Machine
end

section
/-! PROOFS. The bus operations of 40_bus_operations.md: what each of VRAM_RD, XSCR_WR, YSCR_WR and CTRL_WR answers on
legal operands and beyond them (R70, R72 to R74), and from these the read and the three register writes. -/

namespace Sys2Proof.Machine

/-! The two ways each operation can end -/

theorem exec_vramRd_of_lt {offset : Nat} (h : offset < vramCells) (s : State) :
    exec (.vramRd offset) s = .next (s.withResult (some (.cell (s.readVram offset)))) := if_pos h

theorem exec_vramRd_of_ge {offset : Nat} (h : vramCells ≤ offset) (s : State) :
    exec (.vramRd offset) s = .fault .outOfRange := if_neg (Nat.not_lt.2 h)

theorem exec_xscrWr_num (b : Bank) (data mask : Word) (s : State) :
    exec (.xscrWr b.num data mask) s = .next (((s.mergeCtrl (xReg b) data mask).recomputeX b).withResult none) :=
  withBank_num b _

theorem exec_xscrWr_of_ge {bank : Nat} (h : 2 ≤ bank) (data mask : Word) (s : State) :
    exec (.xscrWr bank data mask) s = .fault .outOfRange := withBank_ge h _

theorem exec_yscrWr_num (b : Bank) (data mask : Word) (s : State) :
    exec (.yscrWr b.num data mask) s = .next (((s.mergeCtrl (yReg b) data mask).recomputeY b).withResult none) :=
  withBank_num b _

theorem exec_yscrWr_of_ge {bank : Nat} (h : 2 ≤ bank) (data mask : Word) (s : State) :
    exec (.yscrWr bank data mask) s = .fault .outOfRange := withBank_ge h _

theorem exec_ctrlWr_zero (data mask : Word) (s : State) :
    exec (.ctrlWr 0 data mask) s = .next ((s.mergeCtrl 4 data mask).recomputeFlip.withResult none) := rfl

theorem exec_ctrlWr_of_ge {offset : Nat} (h : 1 ≤ offset) (data mask : Word) (s : State) :
    exec (.ctrlWr offset data mask) s = .fault .outOfRange := if_neg (Nat.not_lt.2 h)

/-! What the written register and the value derived from it hold -/

theorem State.mergeCtrl_get_self (s : State) (k : Fin 5) (data mask : Word) :
    (s.mergeCtrl k data mask).ctrl.get k = ((s.ctrl.get k &&& ~~~mask) ||| (data &&& mask)) := by
  simp [merge]

theorem State.mergeCtrl_get_of_ne (s : State) {j k : Fin 5} (h : j ≠ k) (data mask : Word) :
    (s.mergeCtrl k data mask).ctrl.get j = s.ctrl.get j := by
  simp [h]

theorem State.recomputeX_get_self (s : State) (b : Bank) :
    (s.recomputeX b).scrollx.get b = -((s.ctrl.get (xReg b)).toNat : Int) := by
  simp [cacheX]

theorem State.recomputeX_get_of_ne (s : State) {b c : Bank} (h : c ≠ b) :
    (s.recomputeX b).scrollx.get c = s.scrollx.get c := by
  simp [h]

theorem State.recomputeY_get_self (s : State) (b : Bank) :
    (s.recomputeY b).scrolly.get b = cacheY s.cfg.yInvert (s.ctrl.get (yReg b)) := by
  simp

theorem State.recomputeY_get_of_ne (s : State) {b c : Bank} (h : c ≠ b) :
    (s.recomputeY b).scrolly.get c = s.scrolly.get c := by
  simp [h]

/-- The y cache without y-invert is the negated register (R14). -/
theorem cacheY_of_not_yInvert {inv : Bool} (h : inv = false) (r : Word) : cacheY inv r = -(r.toNat : Int) := by
  simp [cacheY, h]

/-- The y cache with y-invert is the register itself (R14). -/
theorem cacheY_of_yInvert {inv : Bool} (h : inv = true) (r : Word) : cacheY inv r = (r.toNat : Int) := by
  simp [cacheY, h]

/-- After a flip update each bank's latch holds the flip flag, in x and y alike (R23, R74). -/
theorem State.recomputeFlip_latch (s : State) (b : Bank) :
    s.recomputeFlip.be.flip.get b = (s.recomputeFlip.flip, s.recomputeFlip.flip) := by
  cases b <;> rfl

/-- Settles O1: below 0x8000 the read answers the cell, from there on it faults; the VRAM after reset lists no cell. -/
theorem vramReadReturnsTheCell : Obligations.VramReadReturnsTheCell := fun offset s =>
  ⟨fun h => exec_vramRd_of_lt h s, fun h => exec_vramRd_of_ge h s, fun _ => Memory.read_nil offset⟩

/-- Settles O4: the answered state is the merge followed by the x cache's update; each of the two writes one field. -/
theorem xScrollWriteUpdatesRegisterAndCache : Obligations.XScrollWriteUpdatesRegisterAndCache := by
  intro data mask s
  refine ⟨fun b => ⟨_, exec_xscrWr_num b data mask s, ?register, ?registers, ?cache, ?caches, rfl⟩,
    fun bank h => exec_xscrWr_of_ge h data mask s⟩
  case register => exact s.mergeCtrl_get_self (xReg b) data mask
  case registers => exact fun k hk => s.mergeCtrl_get_of_ne hk data mask
  case cache => exact (s.mergeCtrl (xReg b) data mask).recomputeX_get_self b
  case caches => exact fun c hc => (s.mergeCtrl (xReg b) data mask).recomputeX_get_of_ne hc

/-- Settles O5: as for x, with the y cache taken under either value of the y-invert flag. -/
theorem yScrollWriteUpdatesRegisterAndCache : Obligations.YScrollWriteUpdatesRegisterAndCache := by
  intro data mask s
  refine ⟨fun b => ⟨_, exec_yscrWr_num b data mask s, ?register, ?registers, ?plain, ?inverted, ?caches, rfl⟩,
    fun bank h => exec_yscrWr_of_ge h data mask s⟩
  case register => exact s.mergeCtrl_get_self (yReg b) data mask
  case registers => exact fun k hk => s.mergeCtrl_get_of_ne hk data mask
  case plain =>
    exact fun h => ((s.mergeCtrl (yReg b) data mask).recomputeY_get_self b).trans (cacheY_of_not_yInvert h _)
  case inverted =>
    exact fun h => ((s.mergeCtrl (yReg b) data mask).recomputeY_get_self b).trans (cacheY_of_yInvert h _)
  case caches => exact fun c hc => (s.mergeCtrl (yReg b) data mask).recomputeY_get_of_ne hc

/-- Settles O6: the answered state is the merge into `ctrl[4]` followed by the flip update, which reads the merged
register. -/
theorem controlWriteSetsFlipOfBothBanks : Obligations.ControlWriteSetsFlipOfBothBanks := by
  intro data mask s
  refine ⟨⟨_, exec_ctrlWr_zero data mask s, ?register, ?registers, ?flip, ?commands, ?latches, rfl⟩,
    fun offset h => exec_ctrlWr_of_ge h data mask s⟩
  case register => exact s.mergeCtrl_get_self 4 data mask
  case registers => exact fun k hk => s.mergeCtrl_get_of_ne hk data mask
  case flip => exact (s.mergeCtrl 4 data mask).recomputeFlip_flip
  case commands => exact (s.mergeCtrl 4 data mask).recomputeFlip_out
  case latches => exact (s.mergeCtrl 4 data mask).recomputeFlip_latch

end Sys2Proof.Machine
end

section
/-! PROOFS. The lifecycle operations of 70_reset_and_hazards.md: what the two images STATE_SAVE answers hold (R69, R136). -/

namespace Sys2Proof.Machine

@[simp] theorem Memory.length_toImage (m : Memory) : m.toImage.length = vramCells := rfl

/-- Word `k` of a saved image is cell `k` (R69, R136). -/
@[simp] theorem imageWord_toImage (m : Memory) (k : Nat) : imageWord m.toImage k = m.read k := rfl

@[simp] theorem CtrlRegs.length_toImage (c : CtrlRegs) : c.toImage.length = 5 := rfl

/-- Element `k` of a saved `ctrl` image is register `k` (R11, R69). -/
@[simp] theorem CtrlRegs.getElem?_toImage (c : CtrlRegs) (k : Fin 5) : c.toImage[k.val]? = some (c.get k) := by
  fin_cases k <;> rfl

/-- STATE_SAVE completes in every state and writes only its answer (R136). -/
theorem exec_stateSave (s : State) :
    exec .stateSave s = .next (s.withResult (some (.images s.vram.toImage s.ctrl.toImage))) := rfl

/-- Settles O29: the answer is the image of the VRAM and the image of the registers, which hold the cells and the five
registers by index. -/
theorem stateSaveAnswersBothArrays : Obligations.StateSaveAnswersBothArrays := fun s =>
  ⟨s.vram.toImage, s.ctrl.toImage, exec_stateSave s, s.vram.length_toImage, fun k _ => imageWord_toImage s.vram k,
    s.ctrl.length_toImage, s.ctrl.getElem?_toImage⟩

end Sys2Proof.Machine
end

section
/-! PROOFS. What an operation that completes has done, said once for all 18 (30_encoding.md R57): the state it was given,
the operands it accepted and the state it answers. The rules about every operation are case splits of this. -/

namespace Sys2Proof.Machine

/-- `Effect s i t`: operation `i` completes in `s` with the next state `t`. One constructor per operation, two for
VRAM_WR: the cell is a tile's, or it is not (R71). -/
inductive Effect (s : State) : Instr → State → Prop where
  | vramRd (offset : Nat) : Effect s (.vramRd offset) (s.withResult (some (.cell (s.readVram offset))))
  | vramWrTile (offset : Nat) (data mask : Word) (b : Bank) (i : Nat) (hoff : offset < vramCells)
      (hc : classify s.cfg.layout offset = .tile b i) :
      Effect s (.vramWr offset data mask) (((s.mergeVram offset data mask).markTile b i).withResult none)
  | vramWrPlain (offset : Nat) (data mask : Word) (hoff : offset < vramCells)
      (hc : ∀ b i, classify s.cfg.layout offset ≠ .tile b i) :
      Effect s (.vramWr offset data mask) ((s.mergeVram offset data mask).withResult none)
  | xscrWr (b : Bank) (data mask : Word) :
      Effect s (.xscrWr b.num data mask) (((s.mergeCtrl (xReg b) data mask).recomputeX b).withResult none)
  | yscrWr (b : Bank) (data mask : Word) :
      Effect s (.yscrWr b.num data mask) (((s.mergeCtrl (yReg b) data mask).recomputeY b).withResult none)
  | ctrlWr (data mask : Word) :
      Effect s (.ctrlWr 0 data mask) ((s.mergeCtrl 4 data mask).recomputeFlip.withResult none)
  | reset :
      Effect s .reset
        ((((State.resetOf s.cfg).withInput s.input).withOut (s.out ++ resetCommands s.cfg.layout)).withResult none)
  | stateSave : Effect s .stateSave (s.withResult (some (.images s.vram.toImage s.ctrl.toImage)))
  | stateLoad (img : VramImage) (regs : List Word) (c : CtrlRegs) (hc : CtrlRegs.ofImage regs = some c) :
      Effect s (.stateLoad img regs)
        (((((s.withVram (Memory.ofCells img.cells)).withCtrl c).markAll).withNeedRestore true).withResult none)
  | restoreScroll :
      Effect s .restoreScroll
        ((((((s.recomputeX .bg).recomputeX .fg).recomputeY .bg).recomputeY .fg).recomputeFlip.withNeedRestore
          false).withResult none)
  | tmapUpdate : Effect s .tmapUpdate ((s.emit s.tmapCommands).withResult none)
  | tileDec (b : Bank) (i : Nat) : Effect s (.tileDec b.num i) (s.withResult (some (.tile (s.decodeTile b i))))
  | beRedecode (b : Bank) (i : Nat) :
      Effect s (.beRedecode b.num i) ((s.unmarkTile b i).withResult (some (.tile (s.decodeTile b i))))
  | setScroll (b : Bank) (x y : Int) :
      Effect s (.setScroll b.num x y)
        (((s.withScrollx (s.scrollx.set b (-x))).withScrolly (s.scrolly.set b y)).withResult none)
  | setTpen (b : Bank) (pen : Nat) :
      Effect s (.setTpen b.num pen)
        (((s.withTpen (s.tpen.set b (some pen))).emit [.setTransparentPen b pen]).withResult none)
  | draw (b : Bank) (clip : Clip) (o : Bool) (p m : Nat) :
      Effect s (.draw b.num clip o p m)
        ((s.emit [.draw b clip o p m (s.alignDx b) (s.alignDy b) s.flip]).withResult none)
  | drawOfs (b : Bank) (clip : Clip) (o : Bool) (p m : Nat) (dx dy : Int) :
      Effect s (.drawOfs b.num clip o p m dx dy)
        ((s.emit [.draw b clip o p m (s.alignDx b + dx) (s.alignDy b + dy) s.flip]).withResult none)
  | drawSpecial (b : Bank) (clip : Clip) (o : Bool) (cct : ColorTable) (p m : Nat) (planes : Planes) :
      Effect s (.drawSpecial b.num clip o cct p m planes)
        ((s.emit (s.scanlines b clip o cct p m planes)).withResult none)
  | roadPix (pixel lc : Word) : Effect s (.roadPix pixel lc) (s.withResult (some (.pixel (roadPix pixel lc))))

/-- The inversion lemmas of the 18 operations as one. -/
theorem effect_of_exec {i : Instr} {s t : State} (h : exec i s = .next t) : Effect s i t := by
  cases i with
  | vramRd offset => obtain ⟨-, rfl⟩ := execVramRd_next h; exact .vramRd offset
  | vramWr offset data mask =>
    obtain ⟨hoff, ⟨b, i, hc, rfl⟩ | ⟨hc, rfl⟩⟩ := execVramWr_next h
    · exact .vramWrTile offset data mask b i hoff hc
    · exact .vramWrPlain offset data mask hoff hc
  | xscrWr => obtain ⟨b, rfl, rfl⟩ := execXscrWr_next h; exact .xscrWr b ..
  | yscrWr => obtain ⟨b, rfl, rfl⟩ := execYscrWr_next h; exact .yscrWr b ..
  | ctrlWr => obtain ⟨rfl, rfl⟩ := execCtrlWr_next h; exact .ctrlWr ..
  | reset => obtain rfl := execReset_next h; exact .reset
  | stateSave => obtain rfl := execStateSave_next h; exact .stateSave
  | stateLoad img regs => obtain ⟨c, hc, -, rfl⟩ := execStateLoad_next h; exact .stateLoad img regs c hc
  | restoreScroll => obtain rfl := execRestoreScroll_next h; exact .restoreScroll
  | tmapUpdate => obtain ⟨-, rfl⟩ := execTmapUpdate_next h; exact .tmapUpdate
  | tileDec => obtain ⟨b, rfl, -, rfl⟩ := execTileDec_next h; exact .tileDec b _
  | beRedecode => obtain ⟨b, rfl, -, rfl⟩ := execBeRedecode_next h; exact .beRedecode b _
  | setScroll => obtain ⟨b, rfl, rfl⟩ := execSetScroll_next h; exact .setScroll b ..
  | setTpen => obtain ⟨b, rfl, rfl⟩ := execSetTpen_next h; exact .setTpen b _
  | draw => obtain ⟨b, rfl, -, rfl⟩ := execDraw_next h; exact .draw b ..
  | drawOfs => obtain ⟨b, rfl, -, rfl⟩ := execDrawOfs_next h; exact .drawOfs b ..
  | drawSpecial => obtain ⟨b, rfl, -, -, rfl⟩ := execDrawSpecial_next h; exact .drawSpecial b ..
  | roadPix => obtain rfl := execRoadPix_next h; exact .roadPix ..

/-- A step that answers is the operation its next transfer decodes to, on the state without the transfer (R133). -/
theorem exec_of_step {s t : State} (h : step s = .next t) :
    ∃ i rest, exec i (s.withInput rest) = .next t := by
  unfold step State.fetch at h
  cases hin : s.input with
  | nil => simp [hin] at h
  | cons p rest =>
    simp only [hin] at h
    cases hd : decode p with
    | ok i => exact ⟨i, rest, by simpa [hd] using h⟩
    | error e => simp [hd, raise] at h

end Sys2Proof.Machine
end

section
/-! PROOFS. The rules over every operation (R14 to R23, R78, R91): each is a case split of `Effect`, where an operation
either writes the field of the rule and is one of those it names, or keeps the field. -/

namespace Sys2Proof.Machine

/-! The registers of the two banks (R11) -/

@[simp] theorem xReg_inj (b c : Bank) : xReg b = xReg c ↔ b = c := by cases b <;> cases c <;> decide
@[simp] theorem yReg_inj (b c : Bank) : yReg b = yReg c ↔ b = c := by cases b <;> cases c <;> decide
@[simp] theorem xReg_ne_yReg (b c : Bank) : xReg b ≠ yReg c := by cases b <;> cases c <;> decide
@[simp] theorem yReg_ne_xReg (b c : Bank) : yReg b ≠ xReg c := (xReg_ne_yReg c b).symm
@[simp] theorem xReg_ne_four (b : Bank) : xReg b ≠ 4 := by cases b <;> decide
@[simp] theorem yReg_ne_four (b : Bank) : yReg b ≠ 4 := by cases b <;> decide
@[simp] theorem four_ne_xReg (b : Bank) : 4 ≠ xReg b := (xReg_ne_four b).symm
@[simp] theorem four_ne_yReg (b : Bank) : 4 ≠ yReg b := (yReg_ne_four b).symm

/-- The cache rule of R16, cache by cache. -/
theorem State.cachesMatch_iff (s : State) :
    s.CachesMatch ↔ (∀ b, s.scrollx.get b = cacheX (s.ctrl.get (xReg b))) ∧
      (∀ b, s.scrolly.get b = cacheY s.cfg.yInvert (s.ctrl.get (yReg b))) ∧ s.flip = s.ctrl.flipBit := by
  have hx : s.scrollx = ⟨cacheX s.ctrl.xscr0, cacheX s.ctrl.xscr1⟩ ↔
      ∀ b, s.scrollx.get b = cacheX (s.ctrl.get (xReg b)) :=
    ⟨fun h b => by rw [h]; cases b <;> rfl, fun h => PerBank.ext (h .bg) (h .fg)⟩
  have hy : s.scrolly = ⟨cacheY s.cfg.yInvert s.ctrl.yscr0, cacheY s.cfg.yInvert s.ctrl.yscr1⟩ ↔
      ∀ b, s.scrolly.get b = cacheY s.cfg.yInvert (s.ctrl.get (yReg b)) :=
    ⟨fun h b => by rw [h]; cases b <;> rfl, fun h => PerBank.ext (h .bg) (h .fg)⟩
  rw [← hx, ← hy]
  simp only [State.CachesMatch, State.caches, derived, Derived.mk.injEq]

/-- The rule reads five fields: a state that has them from another follows it if the other does. -/
theorem State.CachesMatch.of_eq {s t : State} (h : s.CachesMatch) (hcfg : t.cfg = s.cfg) (hctrl : t.ctrl = s.ctrl)
    (hx : t.scrollx = s.scrollx) (hy : t.scrolly = s.scrolly) (hf : t.flip = s.flip) : t.CachesMatch := by
  simpa only [State.CachesMatch, State.caches, hcfg, hctrl, hx, hy, hf] using h

/-! A register write followed by the update of what it feeds keeps the rule; RESTORE_SCROLL and RESET set it up -/

theorem State.CachesMatch.xscrWr {s : State} (h : s.CachesMatch) (b : Bank) (data mask : Word) :
    ((s.mergeCtrl (xReg b) data mask).recomputeX b).CachesMatch := by
  rw [State.cachesMatch_iff] at h ⊢
  obtain ⟨hx, hy, hf⟩ := h
  refine ⟨fun c => ?_, fun c => ?_, ?_⟩
  · by_cases hc : c = b <;> simp [hc, hx]
  · simp [hy]
  · simp [hf]

theorem State.CachesMatch.yscrWr {s : State} (h : s.CachesMatch) (b : Bank) (data mask : Word) :
    ((s.mergeCtrl (yReg b) data mask).recomputeY b).CachesMatch := by
  rw [State.cachesMatch_iff] at h ⊢
  obtain ⟨hx, hy, hf⟩ := h
  refine ⟨fun c => ?_, fun c => ?_, ?_⟩
  · simp [hx]
  · by_cases hc : c = b <;> simp [hc, hy]
  · simp [hf]

theorem State.CachesMatch.ctrlWr {s : State} (h : s.CachesMatch) (data mask : Word) :
    (s.mergeCtrl 4 data mask).recomputeFlip.CachesMatch := by
  rw [State.cachesMatch_iff] at h ⊢
  obtain ⟨hx, hy, -⟩ := h
  exact ⟨fun c => by simp [hx], fun c => by simp [hy], rfl⟩

theorem State.cachesMatch_restoreScroll (s : State) :
    (((((s.recomputeX .bg).recomputeX .fg).recomputeY .bg).recomputeY .fg).recomputeFlip).CachesMatch := by
  rw [State.cachesMatch_iff]
  exact ⟨fun c => by cases c <;> rfl, fun c => by cases c <;> rfl, rfl⟩

theorem State.cachesMatch_resetOf (cfg : Config) : (State.resetOf cfg).CachesMatch := by
  rw [State.cachesMatch_iff]
  refine ⟨fun c => by cases c <;> rfl, fun c => ?_, by simp [State.resetOf, CtrlRegs.get]⟩
  cases c <;> simp [State.resetOf, PerBank.get, cacheY, CtrlRegs.get, yReg]

/-- Settles O42: the three register writes and the two rebuilding operations have their own lemmas; the rest touch no
field the rule reads. -/
theorem cacheRuleIsKept : Obligations.CacheRuleIsKept := by
  intro i s t h
  cases effect_of_exec h with
  | reset => exact ⟨fun _ => State.cachesMatch_resetOf s.cfg, fun _ _ _ => State.cachesMatch_resetOf s.cfg⟩
  | restoreScroll => exact ⟨fun _ => s.cachesMatch_restoreScroll, fun _ _ _ => s.cachesMatch_restoreScroll⟩
  | xscrWr b data mask => exact ⟨by simp, fun _ _ hs => hs.xscrWr b data mask⟩
  | yscrWr b data mask => exact ⟨by simp, fun _ _ hs => hs.yscrWr b data mask⟩
  | ctrlWr data mask => exact ⟨by simp, fun _ _ hs => hs.ctrlWr data mask⟩
  | setScroll b x y => exact ⟨by simp, fun hne => absurd rfl (hne b.num x y)⟩
  | stateLoad img regs => exact ⟨by simp, fun _ hne => absurd rfl (hne img regs)⟩
  | _ => exact ⟨by simp, fun _ _ hs => hs.of_eq rfl rfl rfl rfl rfl⟩

/-- No operation names `cfg`, and RESET takes it over (R17). -/
theorem cfg_of_exec {i : Instr} {s t : State} (h : exec i s = .next t) : t.cfg = s.cfg := by
  cases effect_of_exec h with
  | reset => rfl
  | _ => simp

/-- Settles O35: the step takes a transfer from the queue and runs its operation. -/
theorem configurationNeverChanges : Obligations.ConfigurationNeverChanges := by
  intro s t h
  obtain ⟨i, rest, hexec⟩ := exec_of_step h
  exact (cfg_of_exec hexec).trans (s.withInput_cfg rest)

/-- Settles O36: the writers of `Effect` are those the rule names, and any other operation's next state has the VRAM and the
registers of the old one by the field lemmas. -/
theorem onlyTheseWriteVramAndRegisters : Obligations.OnlyTheseWriteVramAndRegisters := by
  intro i s t h
  cases effect_of_exec h with
  | vramWrTile | vramWrPlain | xscrWr | yscrWr | ctrlWr | stateLoad | reset => simp [State.readVram]
  | _ => simp [State.readVram]

/-- Settles O37, likewise for the caches, the flip flag and the pens. -/
theorem onlyTheseWriteCachesFlipAndPens : Obligations.OnlyTheseWriteCachesFlipAndPens := by
  intro i s t h
  cases effect_of_exec h with
  | xscrWr | yscrWr | ctrlWr | restoreScroll | setScroll | setTpen | reset => simp
  | _ => simp

/-- Settles O38: of the three operations that write the field each writes a constant. -/
theorem onlyLoadSetsThePendingRestore : Obligations.OnlyLoadSetsThePendingRestore := by
  intro i s t h
  cases effect_of_exec h with
  | stateLoad | restoreScroll | reset => simp [State.resetOf]
  | _ => simp

/-- Settles O39: BE_REDECODE removes its own tile from the marks; RESET and STATE_LOAD mark every tile, VRAM_WR adds one,
and no other operation touches the marks. -/
theorem marksGoOnlyByRedecode : Obligations.MarksGoOnlyByRedecode := by
  intro i s t b j h hj hs ht
  cases effect_of_exec h with
  | beRedecode c k =>
    by_cases hb : b = c
    · subst hb
      have hk : j = k := by simpa [State.isDirty, hs] using ht
      rw [hk]
    · exact absurd hs (by simpa [State.isDirty, hb] using ht)
  | reset | stateLoad => cases b <;> exact absurd ((mem_allTiles _ j).2 hj) ht
  | vramWrTile _ _ _ c k =>
    refine absurd ?_ ht
    by_cases hb : b = c
    · subst hb; simp [State.isDirty, hs]
    · simp [State.isDirty, hb, hs]
  | _ => exact absurd hs (by simpa [State.isDirty] using ht)

/-- Settles O40: an operation that emits does so by `emit`, which applies what it adds; the others leave stream and latches
alone. -/
theorem latchesFollowTheCommands : Obligations.LatchesFollowTheCommands := by
  intro i s t h
  cases effect_of_exec h with
  | vramWrTile | ctrlWr | restoreScroll | tmapUpdate | setTpen | draw | drawOfs | drawSpecial =>
    exact ⟨_, rfl, fun _ => rfl⟩
  | stateLoad => exact ⟨markAllCommands s.cfg.layout, by simp, by simp⟩
  | reset => exact ⟨_, rfl, fun hne => absurd rfl hne⟩
  | _ => exact ⟨[], by simp, by simp⟩

/-- Settles O41: the commands of the other operations are marks, flips, pens and draws, none of which `Backend.apply` takes to
a scroll latch. -/
theorem onlyTmapUpdatePublishesScroll : Obligations.OnlyTmapUpdatePublishesScroll := by
  intro i s t h hne hreset
  cases effect_of_exec h with
  | tmapUpdate => exact absurd rfl hne
  | reset => exact absurd rfl hreset
  | _ => simp [Backend.rowScroll, Backend.apply]

end Sys2Proof.Machine
end

section
/-! PROOFS. The legal states (10_state.md R10, R15, R20, R21, R23): the canonical form of the marks and of the row latches
under the operations on them, the scroll commands of TMAP_UPDATE, and with these every operation that completes. -/

namespace Sys2Proof.Machine

/-! Marks in canonical form (R20) -/

theorem tilesWf_iff (lay : Layout) (t : TileSet) :
    tilesWf lay t = true ↔ t.Pairwise (· < ·) ∧ ∀ i ∈ t, i < lay.nTiles := by
  simp [tilesWf]

theorem tilesWf_insertTile {lay : Layout} {t : TileSet} (h : tilesWf lay t = true) {i : Nat} (hi : i < lay.nTiles) :
    tilesWf lay (insertTile t i) = true := by
  rw [tilesWf_iff] at h ⊢
  refine ⟨ascending_insertTile h.1 i, fun j hj => ?_⟩
  obtain rfl | hj := (mem_insertTile t i j).1 hj
  · exact hi
  · exact h.2 j hj

theorem tilesWf_eraseTile {lay : Layout} {t : TileSet} (h : tilesWf lay t = true) (i : Nat) :
    tilesWf lay (eraseTile t i) = true := by
  rw [tilesWf_iff] at h ⊢
  exact ⟨ascending_eraseTile h.1 i, fun j hj => h.2 j ((mem_eraseTile t i j).1 hj).1⟩

theorem tilesWf_allTiles (lay : Layout) : tilesWf lay (allTiles lay) = true :=
  (tilesWf_iff lay _).2 ⟨ascending_allTiles lay, fun i => (mem_allTiles lay i).1⟩

/-- What holds of a bank's value and of the value written holds of every bank after the write. -/
theorem PerBank.forall_get_set {α : Type} {P : α → Prop} {p : PerBank α} (h : ∀ c, P (p.get c)) (b : Bank) {v : α}
    (hv : P v) (c : Bank) : P ((p.set b v).get c) := by
  rw [PerBank.get_set]
  split
  · exact hv
  · exact h c

/-! Row latches in canonical form (R23) -/

theorem rowsWf_iff (lay : Layout) (m : RowLatches) :
    rowsWf lay m = true ↔ Ascending m ∧ ∀ p ∈ m, p.1 < scrollRows lay := by
  simp [rowsWf]

theorem rowsWf_insertAt {lay : Layout} {m : RowLatches} (h : rowsWf lay m = true) {row : Nat}
    (hrow : row < scrollRows lay) (v : Int) : rowsWf lay (insertAt m row v) = true := by
  rw [rowsWf_iff] at h ⊢
  refine ⟨ascending_insertAt h.1 row v, fun p hp => ?_⟩
  obtain rfl | hp := mem_insertAt hp
  · exact hrow
  · exact h.2 p hp

/-! Scroll commands (R22): what TMAP_UPDATE emits, and that they write scroll latches only -/

/-- A scroll command to a row the backend has (R23). -/
def Command.IsScroll (lay : Layout) : Command → Prop
  | .setScrollX _ row _ => row < scrollRows lay
  | .setScrollY _ _ => True
  | _ => False

theorem Backend.apply_isScroll {lay : Layout} {c : Command} (hc : c.IsScroll lay) (be : Backend) :
    (be.apply c).flip = be.flip ∧ (be.apply c).tpen = be.tpen ∧
      ((∀ b, rowsWf lay (be.scrollX.get b) = true) → ∀ b, rowsWf lay ((be.apply c).scrollX.get b) = true) := by
  cases c with
  | setScrollX b row v =>
    exact ⟨rfl, rfl, fun h => PerBank.forall_get_set (P := (rowsWf lay · = true)) h b (rowsWf_insertAt (h b) hc v)⟩
  | setScrollY => exact ⟨rfl, rfl, id⟩
  | _ => exact hc.elim

theorem Backend.foldl_isScroll {lay : Layout} {cs : List Command} (hcs : ∀ c ∈ cs, c.IsScroll lay) (be : Backend) :
    (cs.foldl Backend.apply be).flip = be.flip ∧ (cs.foldl Backend.apply be).tpen = be.tpen ∧
      ((∀ b, rowsWf lay (be.scrollX.get b) = true) →
        ∀ b, rowsWf lay ((cs.foldl Backend.apply be).scrollX.get b) = true) := by
  induction cs generalizing be with
  | nil => exact ⟨rfl, rfl, id⟩
  | cons c cs ih =>
    obtain ⟨hflip, htpen, hrows⟩ := be.apply_isScroll (hcs c List.mem_cons_self)
    obtain ⟨ihflip, ihtpen, ihrows⟩ := ih (fun d hd => hcs d (List.mem_cons_of_mem c hd)) (be.apply c)
    exact ⟨ihflip.trans hflip, ihtpen.trans htpen, fun h => ihrows (hrows h)⟩

theorem State.rowCommands_isScroll (s : State) (b : Bank) : ∀ c ∈ s.rowCommands b, c.IsScroll .standard := by
  intro c hc
  obtain ⟨j, -, rfl⟩ := List.mem_map.1 hc
  exact (mod512 _).isLt

theorem State.tmapCommands_isScroll (s : State) : ∀ c ∈ s.tmapCommands, c.IsScroll s.cfg.layout := by
  intro c hc
  unfold State.tmapCommands at hc
  obtain hy | hx := List.mem_append.1 hc
  · obtain rfl | rfl := List.mem_pair.1 hy <;> trivial
  · cases hl : s.cfg.layout with
    | standard =>
      simp only [hl] at hx
      exact (List.mem_append.1 hx).elim (s.rowCommands_isScroll .bg c) (s.rowCommands_isScroll .fg c)
    | double =>
      simp only [hl] at hx
      obtain rfl | rfl := List.mem_pair.1 hx <;> exact Nat.one_pos

/-! Legal states -/

/-- Legality reads seven fields and the FLIP bit: a state that has them from a legal one is legal. -/
theorem State.Legal.of_eq {s t : State} (h : s.Legal) (hcfg : t.cfg = s.cfg) (hvram : t.vram = s.vram)
    (hdirty : t.dirty = s.dirty) (hbe : t.be = s.be) (hflip : t.flip = s.flip) (htpen : t.tpen = s.tpen)
    (hnr : t.needRestore = s.needRestore) (hbit : t.ctrl.flipBit = s.ctrl.flipBit) : t.Legal where
  vram := hvram ▸ h.vram
  dirty := by simpa only [hcfg, hdirty] using h.dirty
  rows := by simpa only [hcfg, hbe] using h.rows
  flipLatch := by simpa only [hbe, hflip] using h.flipLatch
  penLatch := by simpa only [hbe, htpen] using h.penLatch
  flipBit := by simpa only [hnr, hflip, hbit] using h.flipBit

theorem State.Legal.mergeVram {s : State} (h : s.Legal) {a : Nat} (ha : a < vramCells) (data mask : Word) :
    (s.mergeVram a data mask).Legal :=
  { h with vram := Memory.wf_write h.vram ha _ }

theorem State.Legal.markTile {s : State} (h : s.Legal) (b : Bank) {i : Nat} (hi : i < s.cfg.layout.nTiles) :
    (s.markTile b i).Legal :=
  { h with
    dirty := PerBank.forall_get_set (P := (tilesWf s.cfg.layout · = true)) h.dirty b
      (tilesWf_insertTile (h.dirty b) hi) }

theorem State.Legal.unmarkTile {s : State} (h : s.Legal) (b : Bank) (i : Nat) : (s.unmarkTile b i).Legal :=
  { h with
    dirty := PerBank.forall_get_set (P := (tilesWf s.cfg.layout · = true)) h.dirty b (tilesWf_eraseTile (h.dirty b) i) }

/-- The flip update makes flag and latches agree with the FLIP bit, whatever they held. -/
theorem State.Legal.recomputeFlip {s : State} (hvram : s.vram.wf = true)
    (hdirty : ∀ b, tilesWf s.cfg.layout (s.dirty.get b) = true)
    (hrows : ∀ b, rowsWf s.cfg.layout (s.be.scrollX.get b) = true) (hpen : ∀ b, s.be.tpen.get b = s.tpen.get b) :
    s.recomputeFlip.Legal where
  vram := hvram
  dirty := hdirty
  rows := hrows
  flipLatch := s.recomputeFlip_latch
  penLatch := hpen
  flipBit := fun _ => rfl

theorem State.Legal.emitTmap {s : State} (h : s.Legal) : (s.emit s.tmapCommands).Legal := by
  obtain ⟨hflip, htpen, hrows⟩ := s.be.foldl_isScroll s.tmapCommands_isScroll
  exact
    { h with
      rows := hrows h.rows
      flipLatch := fun b => by rw [State.emit_be, hflip]; exact h.flipLatch b
      penLatch := fun b => by rw [State.emit_be, htpen]; exact h.penLatch b }

theorem State.Legal.setTpen {s : State} (h : s.Legal) (b : Bank) (pen : Nat) :
    ((s.withTpen (s.tpen.set b (some pen))).emit [.setTransparentPen b pen]).Legal :=
  { h with
    penLatch := fun c => by simp [Backend.apply, h.penLatch c] }

theorem State.Legal.stateLoad {s : State} (h : s.Legal) (cells : List (Nat × Word)) (c : CtrlRegs) :
    ((((s.withVram (Memory.ofCells cells)).withCtrl c).markAll).withNeedRestore true).Legal where
  vram := Memory.wf_ofCells cells
  dirty := fun b => by cases b <;> exact tilesWf_allTiles s.cfg.layout
  rows := by simpa using h.rows
  flipLatch := by simpa using h.flipLatch
  penLatch := by simpa using h.penLatch
  flipBit := by simp

/-- The state after reset is legal for every configuration (R29). -/
theorem State.legal_resetOf (cfg : Config) : (State.resetOf cfg).Legal where
  vram := Memory.wf_resetOf cfg
  dirty := fun b => by cases b <;> exact tilesWf_allTiles cfg.layout
  rows := fun b => by cases b <;> rfl
  flipLatch := fun b => by cases b <;> rfl
  penLatch := fun b => by cases b <;> rfl
  flipBit := fun _ => ((State.cachesMatch_iff _).1 (State.cachesMatch_resetOf cfg)).2.2

/-- Legality does not read what the operation answers. -/
theorem State.Legal.withResult {s : State} (h : s.Legal) (r : Option OpResult) : (s.withResult r).Legal :=
  h.of_eq rfl rfl rfl rfl rfl rfl rfl rfl

/-- Legality does not read the queue. -/
theorem State.Legal.withInput {s : State} (h : s.Legal) (rest : List Packet) : (s.withInput rest).Legal :=
  h.of_eq rfl rfl rfl rfl rfl rfl rfl rfl

/-- Every operation that completes keeps the legal states. -/
theorem legal_of_effect {i : Instr} {s t : State} (h : s.Legal) (heff : Effect s i t) : t.Legal := by
  cases heff with
  | vramWrTile a data mask b i ha hc =>
    have hi := ((classify_eq_tile_iff_addr s.cfg.layout ha b i).1 hc).1
    exact ((h.mergeVram ha data mask).markTile b hi).withResult none
  | vramWrPlain a data mask ha => exact (h.mergeVram ha data mask).withResult none
  | ctrlWr data mask =>
    have hl := State.Legal.recomputeFlip (s := s.mergeCtrl 4 data mask) h.vram h.dirty h.rows h.penLatch
    exact hl.withResult none
  | restoreScroll =>
    have hl := State.Legal.recomputeFlip (s := (((s.recomputeX .bg).recomputeX .fg).recomputeY .bg).recomputeY .fg)
      h.vram h.dirty h.rows h.penLatch
    exact { hl with flipBit := fun _ => rfl }
  | reset => exact (State.legal_resetOf s.cfg).of_eq rfl rfl rfl rfl rfl rfl rfl rfl
  | stateLoad img _ c => exact (h.stateLoad img.cells c).withResult none
  | tmapUpdate => exact h.emitTmap.withResult none
  | beRedecode b i => exact (h.unmarkTile b i).withResult _
  | setTpen b pen => exact (h.setTpen b pen).withResult none
  | vramRd | stateSave | tileDec | roadPix => exact h.withResult _
  | drawSpecial => exact h.of_eq rfl rfl rfl (by simp) rfl rfl rfl rfl
  | xscrWr | yscrWr => exact h.of_eq rfl rfl rfl rfl rfl rfl rfl (by simp)
  | setScroll | draw | drawOfs => exact h.of_eq rfl rfl rfl rfl rfl rfl rfl rfl

/-- Settles O43: the operation the step runs keeps what it finds, and the queue plays no part. -/
theorem stepKeepsLegalStates : Obligations.StepKeepsLegalStates := by
  intro s t h hstep
  obtain ⟨i, rest, hexec⟩ := exec_of_step hstep
  exact legal_of_effect (h.withInput rest) (effect_of_exec hexec)

/-- Settles O44: both halves stand above as lemmas about `State.resetOf`. -/
theorem resetStateIsLegal : Obligations.ResetStateIsLegal := fun cfg =>
  ⟨State.legal_resetOf cfg, State.cachesMatch_resetOf cfg⟩

end Sys2Proof.Machine
end

section
/-! PROOFS. The encoding of 30_encoding.md: a BT word is its five fields (R51), the five bus rows are conditions on the upper
three (R52), and with these the decoder and the encoder undo one another. -/

namespace Sys2Proof.Machine

/-! A BT word and its fields as numbers (R51) -/

theorem toNat_append_eq_add {m n : Nat} (x : BitVec m) (y : BitVec n) : (x ++ y).toNat = x.toNat * 2 ^ n + y.toNat := by
  rw [BitVec.toNat_append, ← Nat.shiftLeft_add_eq_or_of_lt y.isLt, Nat.shiftLeft_eq]

theorem toNat_btWord (rw : BitVec 1) (win : BitVec 2) (offset : Nat) (mask data : Word) :
    (btWord rw win offset mask data).toNat =
      rw.toNat * 2 ^ 49 + win.toNat * 2 ^ 47 + offset % 0x8000 * 2 ^ 32 + mask.toNat * 2 ^ 16 + data.toNat := by
  simp only [btWord, toNat_append_eq_add, BitVec.toNat_ofNat]
  omega

theorem toNat_btRw (w : BitVec 50) : (btRw w).toNat = w.toNat / 2 ^ 49 % 2 := by
  simp [btRw, Nat.shiftRight_eq_div_pow]

theorem toNat_btWin (w : BitVec 50) : (btWin w).toNat = w.toNat / 2 ^ 47 % 4 := by
  simp [btWin, Nat.shiftRight_eq_div_pow]

theorem btOffset_eq (w : BitVec 50) : btOffset w = w.toNat / 2 ^ 32 % 0x8000 := by
  simp [btOffset, Nat.shiftRight_eq_div_pow]

theorem toNat_btMask (w : BitVec 50) : (btMask w).toNat = w.toNat / 2 ^ 16 % 2 ^ 16 := by
  simp [btMask, Nat.shiftRight_eq_div_pow]

theorem toNat_btData (w : BitVec 50) : (btData w).toNat = w.toNat % 2 ^ 16 := by
  simp [btData]

/-! The fields of a built word are what it was built from, and a word is the one its fields build -/

@[simp] theorem btRw_btWord (rw : BitVec 1) (win : BitVec 2) (offset : Nat) (mask data : Word) :
    btRw (btWord rw win offset mask data) = rw := by
  apply BitVec.eq_of_toNat_eq
  rw [toNat_btRw, toNat_btWord]
  omega

@[simp] theorem btWin_btWord (rw : BitVec 1) (win : BitVec 2) (offset : Nat) (mask data : Word) :
    btWin (btWord rw win offset mask data) = win := by
  apply BitVec.eq_of_toNat_eq
  rw [toNat_btWin, toNat_btWord]
  omega

@[simp] theorem btOffset_btWord (rw : BitVec 1) (win : BitVec 2) {offset : Nat} (h : offset < 0x8000)
    (mask data : Word) : btOffset (btWord rw win offset mask data) = offset := by
  rw [btOffset_eq, toNat_btWord]
  omega

@[simp] theorem btMask_btWord (rw : BitVec 1) (win : BitVec 2) (offset : Nat) (mask data : Word) :
    btMask (btWord rw win offset mask data) = mask := by
  apply BitVec.eq_of_toNat_eq
  rw [toNat_btMask, toNat_btWord]
  omega

@[simp] theorem btData_btWord (rw : BitVec 1) (win : BitVec 2) (offset : Nat) (mask data : Word) :
    btData (btWord rw win offset mask data) = data := by
  apply BitVec.eq_of_toNat_eq
  rw [toNat_btData, toNat_btWord]
  omega

theorem btWord_fields (w : BitVec 50) : btWord (btRw w) (btWin w) (btOffset w) (btMask w) (btData w) = w := by
  apply BitVec.eq_of_toNat_eq
  rw [toNat_btWord, toNat_btRw, toNat_btWin, btOffset_eq, toNat_btMask, toNat_btData]
  omega

theorem btOffset_lt (w : BitVec 50) : btOffset w < 0x8000 := (w.extractLsb' 32 15).isLt

/-! The decoder on the words of each row (R52) -/

theorem decodeBt_vramRd {w : BitVec 50} (hrw : btRw w = 0) (hwin : btWin w = 0) :
    decodeBt w = .ok (.vramRd (btOffset w)) := by simp [decodeBt, hrw, hwin]

theorem decodeBt_vramWr {w : BitVec 50} (hrw : btRw w = 1) (hwin : btWin w = 0) :
    decodeBt w = .ok (.vramWr (btOffset w) (btData w) (btMask w)) := by simp [decodeBt, hrw, hwin]

theorem decodeBt_xscrWr {w : BitVec 50} (hrw : btRw w = 1) (hwin : btWin w = 1) (hoff : btOffset w < 2) :
    decodeBt w = .ok (.xscrWr (btOffset w) (btData w) (btMask w)) := by simp [decodeBt, hrw, hwin, hoff]

theorem decodeBt_yscrWr {w : BitVec 50} (hrw : btRw w = 1) (hwin : btWin w = 2) (hoff : btOffset w < 2) :
    decodeBt w = .ok (.yscrWr (btOffset w) (btData w) (btMask w)) := by simp [decodeBt, hrw, hwin, hoff]

theorem decodeBt_ctrlWr {w : BitVec 50} (hrw : btRw w = 1) (hwin : btWin w = 3) (hoff : btOffset w < 1) :
    decodeBt w = .ok (.ctrlWr (btOffset w) (btData w) (btMask w)) := by
  simp [decodeBt, hrw, hwin, Nat.lt_one_iff.1 hoff]

/-- Settles O45: the word of a bus operation has the operation's row and, the operands being in range, its operands as
fields; a sideband record carries its operands as they are. -/
theorem decodeAfterEncodeIsIdentity : Obligations.DecodeAfterEncodeIsIdentity := by
  intro lay i h
  cases i with
  | vramRd offset =>
    have hoff : offset < 0x8000 := by simpa [Instr.wf] using h
    simp [decode, encode, decodeBt_vramRd, hoff]
  | vramWr offset data mask =>
    have hoff : offset < 0x8000 := by simpa [Instr.wf] using h
    simp [decode, encode, decodeBt_vramWr, hoff]
  | xscrWr bank data mask =>
    have hbank : bank < 2 := by simpa [Instr.wf] using h
    have hoff : bank < 0x8000 := by omega
    simp [decode, encode, decodeBt_xscrWr, hoff, hbank]
  | yscrWr bank data mask =>
    have hbank : bank < 2 := by simpa [Instr.wf] using h
    have hoff : bank < 0x8000 := by omega
    simp [decode, encode, decodeBt_yscrWr, hoff, hbank]
  | ctrlWr offset data mask =>
    obtain rfl : offset = 0 := by simpa [Instr.wf] using h
    simp [decode, encode, decodeBt_ctrlWr]
  | _ => rfl

/-! The bus rows of the opcode table (R52) -/

/-- A mask of the bits from `k` up clears the low `k` bits of a word. -/
theorem toNat_and_highMask {n : Nat} (w : BitVec n) (k : Nat) :
    (w &&& (BitVec.allOnes n <<< k)).toNat = w.toNat / 2 ^ k * 2 ^ k := by
  have hand : w &&& (BitVec.allOnes n <<< k) = w >>> k <<< k := by
    refine BitVec.eq_of_getLsbD_eq fun j hj => ?_
    by_cases hjk : j < k
    · simp [hjk]
    · have hsum : k + (j - k) = j := by omega
      simp [hjk, hj, hsum]
  have hle : w.toNat / 2 ^ k * 2 ^ k < 2 ^ n := (Nat.div_mul_le_self _ _).trans_lt w.isLt
  rw [hand]
  simp only [BitVec.toNat_shiftLeft, BitVec.toNat_ushiftRight, Nat.shiftRight_eq_div_pow, Nat.shiftLeft_eq,
    Nat.mod_eq_of_lt hle]

/-- A bus row whose mask is the bits from `k` up compares the word without its low `k` bits. -/
theorem covers_bt_iff (mnemonic : String) {m v : Nat} (w : BitVec 50) (k : Nat)
    (hm : BitVec.ofNat 50 m = BitVec.allOnes 50 <<< k) (hv : v < 2 ^ 50) :
    TableRow.covers ⟨mnemonic, true, m, v⟩ (.bt w) = true ↔ w.toNat / 2 ^ k * 2 ^ k = v := by
  simp only [TableRow.covers, Bool.true_and, decide_eq_true_eq, BitVec.toNat_eq, hm, toNat_and_highMask,
    BitVec.toNat_ofNat, Nat.mod_eq_of_lt hv]

theorem btRw_eq_iff (w : BitVec 50) (v : BitVec 1) : btRw w = v ↔ w.toNat / 2 ^ 49 % 2 = v.toNat := by
  rw [BitVec.toNat_eq, toNat_btRw]

theorem btWin_eq_iff (w : BitVec 50) (v : BitVec 2) : btWin w = v ↔ w.toNat / 2 ^ 47 % 4 = v.toNat := by
  rw [BitVec.toNat_eq, toNat_btWin]

@[simp] theorem covers_vramRd (w : BitVec 50) :
    TableRow.covers ⟨"VRAM_RD", true, 0x3800000000000, 0x0000000000000⟩ (.bt w) = true ↔ btRw w = 0 ∧ btWin w = 0 := by
  rw [covers_bt_iff _ w 47 (by decide) (by decide), btRw_eq_iff, btWin_eq_iff]
  simp only [BitVec.reduceToNat]
  omega

@[simp] theorem covers_vramWr (w : BitVec 50) :
    TableRow.covers ⟨"VRAM_WR", true, 0x3800000000000, 0x2000000000000⟩ (.bt w) = true ↔ btRw w = 1 ∧ btWin w = 0 := by
  rw [covers_bt_iff _ w 47 (by decide) (by decide), btRw_eq_iff, btWin_eq_iff]
  simp only [BitVec.reduceToNat]
  omega

@[simp] theorem covers_xscrWr (w : BitVec 50) :
    TableRow.covers ⟨"XSCR_WR", true, 0x3FFFE00000000, 0x2800000000000⟩ (.bt w) = true ↔
      btRw w = 1 ∧ btWin w = 1 ∧ btOffset w < 2 := by
  rw [covers_bt_iff _ w 33 (by decide) (by decide), btRw_eq_iff, btWin_eq_iff, btOffset_eq]
  simp only [BitVec.reduceToNat]
  omega

@[simp] theorem covers_yscrWr (w : BitVec 50) :
    TableRow.covers ⟨"YSCR_WR", true, 0x3FFFE00000000, 0x3000000000000⟩ (.bt w) = true ↔
      btRw w = 1 ∧ btWin w = 2 ∧ btOffset w < 2 := by
  rw [covers_bt_iff _ w 33 (by decide) (by decide), btRw_eq_iff, btWin_eq_iff, btOffset_eq]
  simp only [BitVec.reduceToNat]
  omega

@[simp] theorem covers_ctrlWr (w : BitVec 50) :
    TableRow.covers ⟨"CTRL_WR", true, 0x3FFFF00000000, 0x3800000000000⟩ (.bt w) = true ↔
      btRw w = 1 ∧ btWin w = 3 ∧ btOffset w < 1 := by
  rw [covers_bt_iff _ w 32 (by decide) (by decide), btRw_eq_iff, btWin_eq_iff, btOffset_eq]
  simp only [BitVec.reduceToNat]
  omega

/-- The word with the fields `RW` and `WIN` named. -/
theorem btWord_of_fields {w : BitVec 50} {rw : BitVec 1} {win : BitVec 2} (hrw : btRw w = rw) (hwin : btWin w = win) :
    btWord rw win (btOffset w) (btMask w) (btData w) = w := by
  subst hrw hwin
  exact btWord_fields w

/-- The rows of R52 and what they leave reserved (R55): every BT word is of one of these kinds. -/
inductive BusWord (w : BitVec 50) : Prop where
  | vramRd (hrw : btRw w = 0) (hwin : btWin w = 0)
  | vramWr (hrw : btRw w = 1) (hwin : btWin w = 0)
  | xscrWr (hrw : btRw w = 1) (hwin : btWin w = 1) (hoff : btOffset w < 2)
  | yscrWr (hrw : btRw w = 1) (hwin : btWin w = 2) (hoff : btOffset w < 2)
  | ctrlWr (hrw : btRw w = 1) (hwin : btWin w = 3) (hoff : btOffset w < 1)
  | windowRead (hrw : btRw w = 0) (hwin : btWin w ≠ 0)
  | beyondScroll (hrw : btRw w = 1) (hwin : btWin w = 1 ∨ btWin w = 2) (hoff : 2 ≤ btOffset w)
  | beyondControl (hrw : btRw w = 1) (hwin : btWin w = 3) (hoff : 1 ≤ btOffset w)

theorem busWord (w : BitVec 50) : BusWord w := by
  have hrws : ∀ v : BitVec 1, v = 0 ∨ v = 1 := by decide
  have hwins : ∀ v : BitVec 2, v = 0 ∨ v = 1 ∨ v = 2 ∨ v = 3 := by decide
  obtain hrw | hrw := hrws (btRw w)
  · by_cases hwin : btWin w = 0
    · exact .vramRd hrw hwin
    · exact .windowRead hrw hwin
  · obtain hwin | hwin | hwin | hwin := hwins (btWin w)
    · exact .vramWr hrw hwin
    · exact (Nat.lt_or_ge (btOffset w) 2).elim (.xscrWr hrw hwin) (.beyondScroll hrw (.inl hwin))
    · exact (Nat.lt_or_ge (btOffset w) 2).elim (.yscrWr hrw hwin) (.beyondScroll hrw (.inr hwin))
    · exact (Nat.lt_or_ge (btOffset w) 1).elim (.ctrlWr hrw hwin) (.beyondControl hrw hwin)

theorem decodeBt_windowRead {w : BitVec 50} (hrw : btRw w = 0) (hwin : btWin w ≠ 0) :
    decodeBt w = .error .noSuchOperation := by
  rw [decodeBt, if_pos hrw, if_neg hwin]

theorem decodeBt_beyondScroll {w : BitVec 50} (hrw : btRw w = 1) (hwin : btWin w = 1 ∨ btWin w = 2)
    (hoff : 2 ≤ btOffset w) : decodeBt w = .error .outOfRange := by
  obtain hwin | hwin := hwin <;> simp [decodeBt, hrw, hwin, Nat.not_lt.2 hoff]

theorem decodeBt_beyondControl {w : BitVec 50} (hrw : btRw w = 1) (hwin : btWin w = 3) (hoff : 1 ≤ btOffset w) :
    decodeBt w = .error .outOfRange := by simp [decodeBt, hrw, hwin, Nat.not_lt.2 hoff]

theorem decodeSb_unassigned {sel : BitVec 4} (h : 13 ≤ sel.toNat) (r : SbRecord) :
    decodeSb sel r = .error .noSuchOperation := by
  have hsel : ∀ sel : BitVec 4, 13 ≤ sel.toNat → sel = 0xD ∨ sel = 0xE ∨ sel = 0xF := by decide
  obtain rfl | rfl | rfl := hsel sel h <;> rfl

/-- What `Obligations.BusWordsDecodeByTheTable` says of one word. -/
def DecodesByTheTable (w : BitVec 50) : Prop :=
  (∀ i, decode (.bt w) = .ok i →
    (∃ row ∈ btRows, row.mnemonic = i.mnemonic ∧ row.covers (.bt w) = true ∧
      ∀ row' ∈ btRows, row'.covers (.bt w) = true → row' = row) ∧
    ((∀ o, i ≠ .vramRd o) → encode i = .bt w) ∧
    (∀ o, i = .vramRd o → o = (w.extractLsb' 32 15).toNat ∧ encode i = .bt (w &&& 0x3FFFF00000000))) ∧
  ((∃ e, decode (.bt w) = .error e) ↔ ∀ row ∈ btRows, row.covers (.bt w) = false)

/-- A word that decodes: its operation's row is the one that matches. -/
theorem decodesByTheTable_of_ok {w : BitVec 50} {i : Instr} {row : TableRow} (hd : decodeBt w = .ok i)
    (hrow : row ∈ btRows) (hname : row.mnemonic = i.mnemonic)
    (hcov : ∀ row' ∈ btRows, row'.covers (.bt w) = true ↔ row' = row)
    (hwrite : (∀ o, i ≠ .vramRd o) → encode i = .bt w)
    (hread : ∀ o, i = .vramRd o → o = btOffset w ∧ encode i = .bt (w &&& 0x3FFFF00000000)) : DecodesByTheTable w := by
  have hself : row.covers (.bt w) = true := (hcov row hrow).2 rfl
  refine ⟨fun j hj => ?_, fun ⟨e, he⟩ => ?_, fun h => ?_⟩
  · obtain rfl : i = j := by simpa [decode, hd] using hj
    exact ⟨⟨row, hrow, hname, hself, fun row' h' => (hcov row' h').1⟩, hwrite, hread⟩
  · simp [decode, hd] at he
  · simp [h row hrow] at hself

/-- A reserved word: no row matches. -/
theorem decodesByTheTable_of_error {w : BitVec 50} {e : DecodeError} (hd : decodeBt w = .error e)
    (hcov : ∀ row ∈ btRows, ¬ row.covers (.bt w) = true) : DecodesByTheTable w := by
  refine ⟨fun i hi => ?_, fun _ row hrow => Bool.not_eq_true _ ▸ hcov row hrow, fun _ => ⟨e, hd⟩⟩
  simp [decode, hd] at hi

/-- The encoding of a read has the fields above MASK and DATA. -/
theorem encode_vramRd_btOffset {w : BitVec 50} (hrw : btRw w = 0) (hwin : btWin w = 0) :
    encode (.vramRd (btOffset w)) = .bt (w &&& 0x3FFFF00000000) := by
  have hhead := Laws.TableMatch.btWord_head 0 0 (btOffset w) (btMask w) (btData w)
  rw [btWord_of_fields hrw hwin] at hhead
  exact congrArg Packet.bt hhead.symm

/-- Settles O46: the word's kind names the operation and the one row that matches, and its fields are the operands. -/
theorem busWordsDecodeByTheTable : Obligations.BusWordsDecodeByTheTable := by
  intro w
  cases busWord w with
  | vramRd hrw hwin =>
    refine decodesByTheTable_of_ok (row := ⟨"VRAM_RD", true, 0x3800000000000, 0x0000000000000⟩)
      (decodeBt_vramRd hrw hwin) (by simp [btRows]) rfl (by simp [btRows, hrw, hwin]) (fun h => absurd rfl (h _)) ?_
    rintro o ⟨⟩
    exact ⟨rfl, encode_vramRd_btOffset hrw hwin⟩
  | vramWr hrw hwin =>
    exact decodesByTheTable_of_ok (row := ⟨"VRAM_WR", true, 0x3800000000000, 0x2000000000000⟩)
      (decodeBt_vramWr hrw hwin) (by simp [btRows]) rfl (by simp [btRows, hrw, hwin])
      (fun _ => congrArg Packet.bt (btWord_of_fields hrw hwin)) (by simp)
  | xscrWr hrw hwin hoff =>
    exact decodesByTheTable_of_ok (row := ⟨"XSCR_WR", true, 0x3FFFE00000000, 0x2800000000000⟩)
      (decodeBt_xscrWr hrw hwin hoff) (by simp [btRows]) rfl (by simp [btRows, hrw, hwin, hoff])
      (fun _ => congrArg Packet.bt (btWord_of_fields hrw hwin)) (by simp)
  | yscrWr hrw hwin hoff =>
    exact decodesByTheTable_of_ok (row := ⟨"YSCR_WR", true, 0x3FFFE00000000, 0x3000000000000⟩)
      (decodeBt_yscrWr hrw hwin hoff) (by simp [btRows]) rfl (by simp [btRows, hrw, hwin, hoff])
      (fun _ => congrArg Packet.bt (btWord_of_fields hrw hwin)) (by simp)
  | ctrlWr hrw hwin hoff =>
    exact decodesByTheTable_of_ok (row := ⟨"CTRL_WR", true, 0x3FFFF00000000, 0x3800000000000⟩)
      (decodeBt_ctrlWr hrw hwin hoff) (by simp [btRows]) rfl (by simp [btRows, hrw, hwin, Nat.lt_one_iff.1 hoff])
      (fun _ => congrArg Packet.bt (btWord_of_fields hrw hwin)) (by simp)
  | windowRead hrw hwin =>
    have hwin0 : ¬ btWin w = 0#2 := hwin
    exact decodesByTheTable_of_error (decodeBt_windowRead hrw hwin) (by simp [-Bool.not_eq_true, btRows, hrw, hwin0])
  | beyondScroll hrw hwin hoff =>
    refine decodesByTheTable_of_error (decodeBt_beyondScroll hrw hwin hoff) ?_
    have hoff' : ¬ btOffset w < 2 := Nat.not_lt.2 hoff
    obtain hwin | hwin := hwin <;> simp [-Bool.not_eq_true, btRows, hrw, hwin, hoff']
  | beyondControl hrw hwin hoff =>
    exact decodesByTheTable_of_error (decodeBt_beyondControl hrw hwin hoff)
      (by simp [-Bool.not_eq_true, btRows, hrw, hwin, Nat.one_le_iff_ne_zero.1 hoff])

/-- Settles O49: each word is evaluated. -/
theorem knownWordsDecode : Obligations.KnownWordsDecode :=
  ⟨Tests.test_decode_vramWr, Tests.test_decode_vramRd, Tests.test_decode_xscrWr, rfl, Tests.test_decode_ctrlWr,
    Tests.test_decode_restoreScroll, Tests.test_decode_beyond_window.1, Tests.test_decode_window_reads.1⟩

/-! The step on the next transfer (R133) -/

theorem step_of_ok {s : State} {p : Packet} {rest : List Packet} {i : Instr} (hin : s.input = p :: rest)
    (hd : decode p = .ok i) : step s = exec i (s.withInput rest) := by
  simp [step, State.fetch, hin, hd]

theorem step_of_error {s : State} {p : Packet} {rest : List Packet} {e : DecodeError} (hin : s.input = p :: rest)
    (hd : decode p = .error e) : step s = .fault (faultOf e) := by
  simp [step, State.fetch, hin, hd, raise]

theorem step_of_nil {s : State} (hin : s.input = []) : step s = .refused .noOperation := by
  simp [step, State.fetch, hin]

/-- Settles O47: each kind of reserved transfer has its decoder lemma, and the step raises what the decoder answers. -/
theorem reservedTransfersFault : Obligations.ReservedTransfersFault := fun _ _ =>
  ⟨fun _ hin hrw hwin => step_of_error hin (decodeBt_windowRead hrw hwin),
    fun _ hin hrw hwin hoff => step_of_error hin (decodeBt_beyondScroll hrw hwin hoff),
    fun _ hin hrw hwin hoff => step_of_error hin (decodeBt_beyondControl hrw hwin hoff),
    fun _ r hin h => step_of_error hin (decodeSb_unassigned h r)⟩

/-- Settles O48: the two ways the queue can stand. -/
theorem stepRunsTheNextTransfer : Obligations.StepRunsTheNextTransfer := fun _ =>
  ⟨fun _ _ _ => step_of_ok, step_of_nil⟩

end Sys2Proof.Machine
end

section
/-! PROOFS. How an operation ends (60_exceptions.md R121 to R124): each operand check answers the first cause it finds, and
an operation is its checks around a body that completes. -/

namespace Sys2Proof.Machine

/-- The outcome is a next state where there is no cause of a fault, and the fault of that cause where there is one. -/
def EndsAs (o : StepOutcome) : Option Fault → Prop
  | none => ∃ t, o = .next t
  | some r => o = .fault r

theorem endsAs_done (s : State) : EndsAs s.done none := ⟨_, rfl⟩

theorem endsAs_answer (s : State) (r : OpResult) : EndsAs (s.answer r) none := ⟨_, rfl⟩

theorem endsAs_ite {p : Prop} [Decidable p] {o o' : StepOutcome} {c c' : Option Fault} (h : p → EndsAs o c)
    (h' : ¬ p → EndsAs o' c') : EndsAs (if p then o else o') (if p then c else c') := by
  split
  · exact h ‹_›
  · exact h' ‹_›

theorem endsAs_withBank {n : Nat} {k : Bank → StepOutcome} (h : ∀ b, EndsAs (k b) none) :
    EndsAs (withBank n k) (if n < 2 then none else some .outOfRange) := by
  split
  · next hn =>
    obtain ⟨b, rfl⟩ := bankOf_of_lt hn
    rw [withBank_num]
    exact h b
  · exact withBank_ge (by omega) k

theorem endsAs_withTile {n i : Nat} {s : State} {k : Bank → StepOutcome} (h : ∀ b, EndsAs (k b) none) :
    EndsAs (withTile n i s k) (if n < 2 ∧ i < s.cfg.layout.nTiles then none else some .outOfRange) := by
  split
  · next hn =>
    obtain ⟨b, rfl⟩ := bankOf_of_lt hn.1
    rw [withTile_num b hn.2]
    exact h b
  · next hn => exact withTile_bad hn k

theorem endsAs_unlessRestorePending {s : State} {o : StepOutcome} {c : Option Fault} (h : EndsAs o c) :
    EndsAs (unlessRestorePending s o) (if s.needRestore then some .restorePending else c) :=
  endsAs_ite (fun _ => rfl) fun _ => h

theorem endsAs_withDrawBank {n : Nat} {s : State} {k : Bank → StepOutcome} {c : Option Fault}
    (h : ∀ b, EndsAs (k b) c) :
    EndsAs (withDrawBank n s k)
      (if 2 ≤ n then some .outOfRange else if s.needRestore then some .restorePending else c) := by
  split
  · exact withBank_ge ‹_› _
  · obtain ⟨b, rfl⟩ := bankOf_of_lt (by omega : n < 2)
    rw [withDrawBank, withBank_num]
    exact endsAs_unlessRestorePending (h b)

theorem endsAs_execVramWr (offset : Nat) (data mask : Word) (s : State) :
    EndsAs (execVramWr offset data mask s) (if offset < 0x8000 then none else some .outOfRange) := by
  refine endsAs_ite (fun _ => ?_) fun _ => rfl
  split <;> exact endsAs_done _

theorem endsAs_execStateLoad (img : VramImage) (regs : List Word) (s : State) :
    EndsAs (execStateLoad img regs s)
      (if img.length = 0x8000 ∧ regs.length = 5 then none else some .badImage) := by
  unfold execStateLoad
  by_cases hregs : regs.length = 5
  · obtain ⟨c, hc, -⟩ := CtrlRegs.ofImage_of_length hregs
    simp only [hc, hregs, and_true]
    exact endsAs_ite (fun _ => endsAs_done _) fun _ => rfl
  · simp only [CtrlRegs.ofImage_none hregs, hregs, and_false, if_false]
    rfl

theorem endsAs_execDrawSpecial (bank : Nat) (clip : Clip) (o : Bool) (cct : ColorTable) (p m : Nat) (planes : Planes)
    (s : State) :
    EndsAs (execDrawSpecial bank clip o cct p m planes s)
      (firstCause (.drawSpecial bank clip o cct p m planes) s) := by
  refine endsAs_withDrawBank fun b => ?_
  cases s.cfg.layout with
  | standard => exact endsAs_done _
  | double => rfl

/-- Every operation ends as `firstCause` says. -/
theorem endsAs_firstCause (i : Instr) (s : State) : EndsAs (exec i s) (firstCause i s) := by
  cases i with
  | vramRd => exact endsAs_ite (fun _ => endsAs_answer s _) fun _ => rfl
  | vramWr => exact endsAs_execVramWr ..
  | xscrWr | yscrWr | setScroll | setTpen => exact endsAs_withBank fun _ => endsAs_done _
  | ctrlWr => exact endsAs_ite (fun _ => endsAs_done _) fun _ => rfl
  | reset | restoreScroll => exact endsAs_done _
  | stateSave | roadPix => exact endsAs_answer s _
  | stateLoad => exact endsAs_execStateLoad ..
  | tmapUpdate => exact endsAs_unlessRestorePending (endsAs_done _)
  | tileDec | beRedecode => exact endsAs_withTile fun _ => endsAs_answer _ _
  | draw | drawOfs => exact endsAs_withDrawBank fun _ => endsAs_done _
  | drawSpecial => exact endsAs_execDrawSpecial ..

theorem exec_next_of_firstCause_none {i : Instr} {s : State} (h : firstCause i s = none) : ∃ t, exec i s = .next t := by
  have hends := endsAs_firstCause i s
  rwa [h] at hends

theorem exec_fault_of_firstCause {i : Instr} {s : State} {r : Fault} (h : firstCause i s = some r) :
    exec i s = .fault r := by
  have hends := endsAs_firstCause i s
  rwa [h] at hends

/-- Settles O32: the two halves of `endsAs_firstCause`. -/
theorem operationsFaultExactlyForTheListedCauses : Obligations.OperationsFaultExactlyForTheListedCauses := fun _ _ =>
  ⟨exec_next_of_firstCause_none, fun _ => exec_fault_of_firstCause⟩

/-- Settles O33: a bank of the block leaves the pending restore as the first cause. -/
theorem noDrawWhileARestoreIsPending : Obligations.NoDrawWhileARestoreIsPending := by
  intro b clip o cct priority pmask planes ex ey s h
  have hb : ¬ 2 ≤ b.num := Nat.not_le.2 b.num_lt
  refine ⟨?_, ?_, ?_, ?_⟩ <;> exact exec_fault_of_firstCause (by simp [firstCause, h, hb])

/-! Bus traffic (R76) -/

/-- A transfer that a bus row matches is an operation with no cause of a fault in any state. -/
theorem decode_of_covers {p : Packet} (h : ∃ row ∈ btRows, row.covers p = true) :
    ∃ i, decode p = .ok i ∧ ∀ s, firstCause i s = none := by
  obtain ⟨row, hrow, hcov⟩ := h
  cases p with
  | sb =>
    have hbus : ∀ row ∈ btRows, row.bus = true := by decide
    simp [TableRow.covers, hbus row hrow] at hcov
  | bt w =>
    have hoff := btOffset_lt w
    have hne : ∀ e, decodeBt w ≠ .error e := fun e he => by
      simp [(busWordsDecodeByTheTable w).2.1 ⟨e, he⟩ row hrow] at hcov
    cases busWord w with
    | vramRd hrw hwin => exact ⟨_, decodeBt_vramRd hrw hwin, fun _ => if_pos hoff⟩
    | vramWr hrw hwin => exact ⟨_, decodeBt_vramWr hrw hwin, fun _ => if_pos hoff⟩
    | xscrWr hrw hwin hbank => exact ⟨_, decodeBt_xscrWr hrw hwin hbank, fun _ => if_pos hbank⟩
    | yscrWr hrw hwin hbank => exact ⟨_, decodeBt_yscrWr hrw hwin hbank, fun _ => if_pos hbank⟩
    | ctrlWr hrw hwin hzero => exact ⟨_, decodeBt_ctrlWr hrw hwin hzero, fun _ => if_pos hzero⟩
    | windowRead hrw hwin => exact absurd (decodeBt_windowRead hrw hwin) (hne _)
    | beyondScroll hrw hwin hbeyond => exact absurd (decodeBt_beyondScroll hrw hwin hbeyond) (hne _)
    | beyondControl hrw hwin hbeyond => exact absurd (decodeBt_beyondControl hrw hwin hbeyond) (hne _)

/-- No operation touches the queue. -/
theorem input_of_exec {i : Instr} {s t : State} (h : exec i s = .next t) : t.input = s.input := by
  cases effect_of_exec h <;> simp

theorem run_succ_of_next {M : Host.Core} {s t : M.State} (h : M.step s = .next t) (n : Nat) :
    M.run (n + 1) s = M.run n t := by
  rw [Host.Core.run, h]

theorem run_succ_of_refused {M : Host.Core} {s : M.State} {r : M.Refusal} (h : M.step s = .refused r) (n : Nat) :
    M.run (n + 1) s = .refused r := by
  rw [Host.Core.run, h]

/-- Settles O34: by induction on the steps, the queue keeping its words but for the one taken. -/
theorem busTrafficNeverFaults : Obligations.BusTrafficNeverFaults := by
  intro n
  induction n with
  | zero => intro s _ r h; cases h
  | succ n ih =>
    intro s hs r h
    cases hin : s.input with
    | nil =>
      have hrun := (run_succ_of_refused (M := core) (step_of_nil hin) n).symm.trans h
      cases hrun
    | cons p rest =>
      obtain ⟨i, hd, hcause⟩ := decode_of_covers (hs p (by simp [hin]))
      obtain ⟨t, ht⟩ := exec_next_of_firstCause_none (hcause (s.withInput rest))
      have hstep : step s = .next t := (step_of_ok hin hd).trans ht
      have hrest : t.input = rest := input_of_exec ht
      refine ih t (fun q hq => hs q ?_) r ((run_succ_of_next (M := core) hstep n).symm.trans h)
      rw [hin, ← hrest]
      exact List.mem_cons_of_mem _ hq

end Sys2Proof.Machine
end

section
/-! PROOFS. VRAM_WR and the masked merge (40_bus_operations.md R71, R75), and the tile decoder over the cells it writes
(41_tile_decoder.md R80 to R84). -/

namespace Sys2Proof.Machine

/-! The masked merge (R75) -/

@[simp] theorem merge_full (o v : Word) : merge o v 0xFFFF#16 = v := by
  have hones : 0xFFFF#16 = BitVec.allOnes 16 := rfl
  simp only [merge, hones, BitVec.not_allOnes, BitVec.and_zero, BitVec.and_allOnes, BitVec.zero_or]

@[simp] theorem merge_zero (o v : Word) : merge o v 0#16 = o := by
  refine BitVec.eq_of_getLsbD_eq fun k _ => ?_
  simp

theorem merge_merge (o v m v' m' : Word) : merge (merge o v m) v' m' = merge o (merge v v' m') (m ||| m') := by
  refine BitVec.eq_of_getLsbD_eq fun k _ => ?_
  simp only [getLsbD_merge, BitVec.getLsbD_or]
  cases m.getLsbD k <;> cases m'.getLsbD k <;> rfl

/-- Two merges whose masks are each other's complement leave nothing of the old word. -/
theorem merge_merge_compl (o v v' m : Word) : merge (merge o v m) v' (~~~m) = ((v &&& m) ||| (v' &&& ~~~m)) := by
  refine BitVec.eq_of_getLsbD_eq fun k hk => ?_
  simp only [getLsbD_merge, BitVec.getLsbD_or, BitVec.getLsbD_and, BitVec.getLsbD_not, hk]
  cases m.getLsbD k <;> simp

theorem merge_upper_lower (o v v' : Word) :
    merge (merge o v 0xFF00) v' 0x00FF = ((v &&& 0xFF00) ||| (v' &&& 0x00FF)) := merge_merge_compl o v v' 0xFF00

theorem merge_lower_upper (o v v' : Word) :
    merge (merge o v' 0x00FF) v 0xFF00 = ((v &&& 0xFF00) ||| (v' &&& 0x00FF)) :=
  (merge_merge_compl o v' v 0x00FF).trans (BitVec.or_comm _ _)

/-- Settles O3: the two byte-lane laws are `merge_merge_compl` for the upper and for the lower lane. -/
theorem maskedMergeLaws : Obligations.MaskedMergeLaws := fun o v m v' m' =>
  ⟨merge_full o v, merge_zero o v, getLsbD_merge o v m, merge_merge o v m v' m', merge_upper_lower o v v',
    merge_lower_upper o v v'⟩

/-! VRAM_WR (R71) -/

theorem exec_vramWr_of_lt {offset : Nat} (h : offset < 0x8000) (data mask : Word) (s : State) :
    ∃ t, exec (.vramWr offset data mask) s = .next t := exec_next_of_firstCause_none (if_pos h)

section
variable {offset : Nat} {data mask : Word} {s t : State} (h : exec (.vramWr offset data mask) s = .next t)
include h

theorem readVram_of_vramWr (a : Nat) :
    t.readVram a = if offset = a then merge (s.readVram offset) data mask else s.readVram a := by
  cases effect_of_exec h <;> simp

theorem readVram_of_vramWr_self : t.readVram offset = merge (s.readVram offset) data mask := by
  simp [readVram_of_vramWr h]

theorem readVram_of_vramWr_of_ne {a : Nat} (ha : a ≠ offset) : t.readVram a = s.readVram a := by
  simp [readVram_of_vramWr h, ha.symm]

theorem isDirty_of_vramWr_tile {b : Bank} {i : Nat} (hc : classify s.cfg.layout offset = .tile b i) (c : Bank) (j : Nat) :
    t.isDirty c j ↔ s.isDirty c j ∨ (c = b ∧ j = i) := by
  cases effect_of_exec h with
  | vramWrPlain _ _ _ _ hne => exact absurd hc (hne b i)
  | vramWrTile _ _ _ b' i' _ hc' =>
    obtain ⟨rfl, rfl⟩ : b' = b ∧ i' = i := by simpa using hc'.symm.trans hc
    by_cases hcb : c = b'
    · subst hcb; simp [State.isDirty, or_comm]
    · simp [State.isDirty, hcb]

theorem out_of_vramWr_tile {b : Bank} {i : Nat} (hc : classify s.cfg.layout offset = .tile b i) :
    t.out = s.out ++ [.markTileDirty b i] := by
  cases effect_of_exec h with
  | vramWrPlain _ _ _ _ hne => exact absurd hc (hne b i)
  | vramWrTile _ _ _ b' i' _ hc' =>
    obtain ⟨rfl, rfl⟩ : b' = b ∧ i' = i := by simpa using hc'.symm.trans hc
    rfl

theorem dirty_out_of_vramWr_plain (hc : ∀ b i, classify s.cfg.layout offset ≠ .tile b i) :
    t.dirty = s.dirty ∧ t.out = s.out := by
  cases effect_of_exec h with
  | vramWrTile _ _ _ b i _ hc' => exact absurd hc' (hc b i)
  | vramWrPlain => exact ⟨rfl, rfl⟩

theorem frame_of_vramWr : t = { s with vram := t.vram, dirty := t.dirty, out := t.out, result := none } := by
  cases effect_of_exec h <;> rfl

end

/-- Settles O2: each clause is the lemma about VRAM_WR of its name; the read-back is VRAM_RD in the state answered. -/
theorem vramWriteMergesAndMarksItsTile : Obligations.VramWriteMergesAndMarksItsTile := by
  intro offset data mask s
  refine ⟨fun hlt => ?_, fun hge => exec_fault_of_firstCause (if_neg (Nat.not_lt.2 hge))⟩
  obtain ⟨t, h⟩ := exec_vramWr_of_lt hlt data mask s
  refine ⟨t, h, readVram_of_vramWr_self h, fun a => readVram_of_vramWr_of_ne h,
    fun b i hc => ⟨isDirty_of_vramWr_tile h hc, out_of_vramWr_tile h hc⟩, dirty_out_of_vramWr_plain h,
    frame_of_vramWr h, ?_⟩
  exact (exec_vramRd_of_lt hlt t).trans (by rw [readVram_of_vramWr_self h]; rfl)

/-! Byte-wide platform writes (R40) -/

/-- The upper lane of one doubled byte and the lower lane of another. -/
theorem upper_or_lower (x y : BitVec 8) : (((x ++ x) &&& 0xFF00) ||| ((y ++ y) &&& 0x00FF) : Word) = x ++ y := by
  refine BitVec.eq_of_getLsbD_eq fun k hk => ?_
  simp only [BitVec.getLsbD_or, BitVec.getLsbD_and, BitVec.getLsbD_append]
  interval_cases k <;> simp

/-- Two masked writes of one cell, one after the other. -/
theorem readVram_after_two_vramWr {a : Nat} (ha : a < 0x8000) (v m v' m' : Word) (s : State) :
    ∃ t u, exec (.vramWr a v m) s = .next t ∧ exec (.vramWr a v' m') t = .next u ∧
      u.readVram a = merge (merge (s.readVram a) v m) v' m' := by
  obtain ⟨t, ht⟩ := exec_vramWr_of_lt ha v m s
  obtain ⟨u, hu⟩ := exec_vramWr_of_lt ha v' m' t
  exact ⟨t, u, ht, hu, by rw [readVram_of_vramWr_self hu, readVram_of_vramWr_self ht]⟩

/-- Settles O7: the two bytes of a cell are two masked writes with complementary lanes, in the order of `BYTE_ORDER`. -/
theorem byteWritesFillTheirLanes : Obligations.ByteWritesFillTheirLanes := by
  intro a first second s ha
  have heven : (2 * a) / 2 = a := by omega
  have hodd : (2 * a + 1) / 2 = a := by omega
  constructor
  · obtain ⟨t, u, ht, hu, hread⟩ := readVram_after_two_vramWr ha (first ++ first) 0xFF00 (second ++ second) 0x00FF s
    refine ⟨t, u, ?_, ?_, ?_⟩
    · simpa [platformByteWrite, laneMask, heven] using ht
    · simpa [platformByteWrite, laneMask, hodd, Nat.add_mod] using hu
    · rw [hread, merge_upper_lower, upper_or_lower]
  · obtain ⟨t, u, ht, hu, hread⟩ := readVram_after_two_vramWr ha (first ++ first) 0x00FF (second ++ second) 0xFF00 s
    refine ⟨t, u, ?_, ?_, ?_⟩
    · simpa [platformByteWrite, laneMask, heven] using ht
    · simpa [platformByteWrite, laneMask, hodd, Nat.add_mod] using hu
    · rw [hread, merge_lower_upper, upper_or_lower]

/-! The two cells of a tile (R34, R35) and its record (R60, R61) -/

theorem attrAddr_lt {lay : Layout} (b : Bank) {i : Nat} (hi : i < lay.nTiles) : attrAddr lay b i < 0x8000 := by
  cases lay <;> cases b <;> simp only [Layout.nTiles, attrAddr, bankBase_bg, bankBase_fg] at hi ⊢ <;> omega

theorem codeAddr_lt {lay : Layout} (b : Bank) {i : Nat} (hi : i < lay.nTiles) : codeAddr lay b i < 0x8000 := by
  cases lay <;> cases b <;> simp only [Layout.nTiles, codeAddr, bankBase_bg, bankBase_fg] at hi ⊢ <;> omega

theorem attrAddr_ne_codeAddr (lay : Layout) (b : Bank) (i : Nat) : attrAddr lay b i ≠ codeAddr lay b i := by
  cases lay <;> simp only [attrAddr, codeAddr] <;> omega

theorem State.decodeTile_of_readVram {s t : State} {b : Bank} {i : Nat} {attr code : Word} (hcfg : t.cfg = s.cfg)
    (ha : t.readVram (attrAddr s.cfg.layout b i) = attr) (hc : t.readVram (codeAddr s.cfg.layout b i) = code) :
    t.decodeTile b i = tileRecordOf attr code := by
  rw [State.decodeTile, hcfg, ha, hc]

/-- A write of neither of a tile's cells leaves what it decodes to (R83 b). -/
theorem decodeTile_of_vramWr_of_ne {offset : Nat} {data mask : Word} {s t : State}
    (h : exec (.vramWr offset data mask) s = .next t) {b : Bank} {i : Nat} (ha : offset ≠ attrAddr s.cfg.layout b i)
    (hc : offset ≠ codeAddr s.cfg.layout b i) : t.decodeTile b i = s.decodeTile b i :=
  State.decodeTile_of_readVram (cfg_of_exec h) (readVram_of_vramWr_of_ne h ha.symm) (readVram_of_vramWr_of_ne h hc.symm)

/-- Settles O10: a write that changes the record is to one of the tile's two cells, which `classify` gives to the tile. -/
theorem writesThatChangeATileMarkIt : Obligations.WritesThatChangeATileMarkIt := by
  intro offset data mask s t b i h hi
  refine ⟨fun hne => ?_, decodeTile_of_vramWr_of_ne h⟩
  have hcell : offset = attrAddr s.cfg.layout b i ∨ offset = codeAddr s.cfg.layout b i := by
    by_contra hother
    obtain ⟨ha, hc⟩ := not_or.1 hother
    exact hne (decodeTile_of_vramWr_of_ne h ha hc)
  have hlt : offset < 0x8000 := hcell.elim (· ▸ attrAddr_lt b hi) (· ▸ codeAddr_lt b hi)
  have htile := (classify_eq_tile_iff_addr s.cfg.layout hlt b i).2 ⟨hi, hcell⟩
  exact ⟨(isDirty_of_vramWr_tile h htile b i).2 (.inr ⟨rfl, rfl⟩), out_of_vramWr_tile h htile⟩

/-- Settles O13: the second write is of another cell and leaves the first word in place. -/
theorem tileWriteSetsTheRecord : Obligations.TileWriteSetsTheRecord := by
  intro b i attr code s hi
  have hclt := codeAddr_lt b hi
  have hne := attrAddr_ne_codeAddr s.cfg.layout b i
  obtain ⟨t, ht⟩ := exec_vramWr_of_lt (attrAddr_lt b hi) attr 0xFFFF s
  obtain ⟨u, hu⟩ := exec_vramWr_of_lt hclt code 0xFFFF t
  have hcfg : u.cfg = s.cfg := (cfg_of_exec hu).trans (cfg_of_exec ht)
  have hattr : u.readVram (attrAddr s.cfg.layout b i) = attr := by
    rw [readVram_of_vramWr_of_ne hu hne, readVram_of_vramWr_self ht]
    exact merge_full _ _
  have hcode : u.readVram (codeAddr s.cfg.layout b i) = code := by
    rw [readVram_of_vramWr_self hu]
    exact merge_full _ _
  have htile : classify t.cfg.layout (codeAddr s.cfg.layout b i) = .tile b i := by
    rw [cfg_of_exec ht]
    exact (classify_eq_tile_iff_addr s.cfg.layout hclt b i).2 ⟨hi, .inr rfl⟩
  refine ⟨t, u, by simp [expandPseudo, hi, vramWrite16], ht, hu, State.decodeTile_of_readVram hcfg hattr hcode,
    (isDirty_of_vramWr_tile hu htile b i).2 (.inr ⟨rfl, rfl⟩), fun a ha hc => ?_⟩
  rw [readVram_of_vramWr_of_ne hu hc, readVram_of_vramWr_of_ne ht ha]

theorem exec_tileDec_num (b : Bank) {i : Nat} {s : State} (hi : i < s.cfg.layout.nTiles) :
    exec (.tileDec b.num i) s = .next (s.withResult (some (.tile (s.decodeTile b i)))) := withTile_num b hi _

theorem exec_beRedecode_num (b : Bank) {i : Nat} {s : State} (hi : i < s.cfg.layout.nTiles) :
    exec (.beRedecode b.num i) s = .next ((s.unmarkTile b i).withResult (some (.tile (s.decodeTile b i)))) :=
  withTile_num b hi _

/-- The low `k` bits as a field and as a mask. -/
theorem toNat_extractLsb'_zero (x : Word) (k : Nat) (hk : k ≤ 16) :
    (x.extractLsb' 0 k).toNat = (x &&& BitVec.ofNat 16 (2 ^ k - 1)).toNat := by
  have hlt : 2 ^ k - 1 < 2 ^ 16 :=
    (Nat.sub_lt (Nat.two_pow_pos k) Nat.one_pos).trans_le (Nat.pow_le_pow_right (by decide) hk)
  rw [BitVec.extractLsb'_toNat, BitVec.toNat_and, BitVec.toNat_ofNat, Nat.mod_eq_of_lt hlt, Nat.shiftRight_zero,
    Nat.and_two_pow_sub_one_eq_mod]

/-- Settles O11: the record is that of the two cells, whose addresses the layout gives. -/
theorem tileDecodeReadsItsTwoCells : Obligations.TileDecodeReadsItsTwoCells := by
  intro b i s hi
  refine ⟨s.readVram (attrAddr s.cfg.layout b i), s.readVram (codeAddr s.cfg.layout b i), s.decodeTile b i, fun hl => ?_,
    fun hl => ?_, toNat_extractLsb'_zero _ 14 (by decide), toNat_extractLsb'_zero _ 9 (by decide), rfl, rfl,
    exec_tileDec_num b hi⟩
  · simp [hl, attrAddr, codeAddr, bankBase]
  · simp [hl, attrAddr, codeAddr, bankBase, Nat.add_right_comm]

/-- Settles O12: BE_REDECODE answers the record of the state it found. -/
theorem redecodeAnswersTheRecordAndClearsOneMark : Obligations.RedecodeAnswersTheRecordAndClearsOneMark := by
  intro b i s hi
  refine ⟨_, _, exec_beRedecode_num b hi, exec_tileDec_num b hi, rfl, fun c j => ?_, rfl⟩
  by_cases hc : c = b
  · subst hc; simp [State.isDirty]
  · simp [State.isDirty, hc]

end Sys2Proof.Machine
end

section
/-! PROOFS. The scroll-table indexer (42_scroll_indexer.md R90 to R96): RESTORE_SCROLL and the derived tuple, the order and
the latches of TMAP_UPDATE in each layout, the overrides of SET_SCROLL, and the pens. -/

namespace Sys2Proof.Machine

/-! RESTORE_SCROLL (R90) -/

/-- The state RESTORE_SCROLL answers: the derived tuple, the flip flag sent to and latched in both banks, no restore
pending. -/
def State.restored (s : State) : State :=
  { s with
    scrollx := ⟨cacheX (s.ctrl.get 0), cacheX (s.ctrl.get 1)⟩
    scrolly := ⟨cacheY s.cfg.yInvert (s.ctrl.get 2), cacheY s.cfg.yInvert (s.ctrl.get 3)⟩
    flip := s.ctrl.flipBit
    needRestore := false
    be := { s.be with flip := ⟨(s.ctrl.flipBit, s.ctrl.flipBit), (s.ctrl.flipBit, s.ctrl.flipBit)⟩ }
    out := s.out ++ [.setFlip .bg s.ctrl.flipBit s.ctrl.flipBit, .setFlip .fg s.ctrl.flipBit s.ctrl.flipBit]
    result := none }

theorem exec_restoreScroll (s : State) : exec .restoreScroll s = .next s.restored := by
  refine congrArg Host.Outcome.next ?_
  apply State.ext <;> simp [State.restored, xReg, yReg, PerBank.set]

theorem State.restored_caches (s : State) : s.restored.caches = derived s.cfg s.ctrl := rfl

theorem State.restored_scrollx (s : State) (b : Bank) : s.restored.scrollx.get b = cacheX (s.ctrl.get (xReg b)) := by
  cases b <;> rfl

theorem State.restored_scrolly (s : State) (b : Bank) :
    s.restored.scrolly.get b = cacheY s.cfg.yInvert (s.ctrl.get (yReg b)) := by
  cases b <;> rfl

/-- Settles O14: the tuple of the answered state is `derived` of configuration and registers, which RESTORE_SCROLL keeps. -/
theorem restoreScrollRebuildsTheCaches : Obligations.RestoreScrollRebuildsTheCaches := by
  intro s
  refine ⟨s.restored, exec_restoreScroll s, s.restored_scrollx, fun h b => ?plain, fun h b => ?inverted, rfl, rfl, rfl,
    fun b => ?latch, rfl, fun u hcfg hctrl => ⟨_, exec_restoreScroll u, ?others⟩, fun h => ?own,
    exec_restoreScroll s.restored⟩
  case plain => rw [s.restored_scrolly, cacheY_of_not_yInvert h]
  case inverted => rw [s.restored_scrolly, cacheY_of_yInvert h]
  case latch => cases b <;> rfl
  case others => rw [u.restored_caches, s.restored_caches, hcfg, hctrl]
  case own => exact s.restored_caches.trans h.symm

/-! Runs of row commands (R93) -/

/-- `SetScrollX` of bank `b` for `j = 0 … n - 1`, to row `row j` with value `value j`. -/
def rowRun (b : Bank) (row : Nat → Nat) (value : Nat → Int) (n : Nat) : List Command :=
  (List.range n).map fun j => .setScrollX b (row j) (value j)

theorem rowRun_succ (b : Bank) (row : Nat → Nat) (value : Nat → Int) (n : Nat) :
    rowRun b row value (n + 1) = rowRun b row value n ++ [.setScrollX b (row n) (value n)] := by
  simp [rowRun, List.range_succ]

theorem State.rowCommands_eq_rowRun (s : State) (b : Bank) :
    s.rowCommands b = rowRun b (s.targetRow b) (s.rowValue b) 256 := rfl

theorem Backend.rowScroll_apply_setScrollX (be : Backend) (b c : Bank) (row row' : Nat) (v : Int) :
    (be.apply (.setScrollX b row v)).rowScroll c row' =
      if c = b ∧ row' = row then some v else be.rowScroll c row' := by
  by_cases hc : c = b
  · subst hc; simp [Backend.rowScroll, Backend.apply, eq_comm]
  · simp [Backend.rowScroll, Backend.apply, hc]

theorem Backend.scrollY_rowRun (be : Backend) (b : Bank) (row : Nat → Nat) (value : Nat → Int) (n : Nat) :
    ((rowRun b row value n).foldl Backend.apply be).scrollY = be.scrollY := by
  induction n with
  | zero => rfl
  | succ n ih => rw [rowRun_succ, List.foldl_append]; exact ih

/-- A row latch no command of the run is for keeps its value. -/
theorem Backend.rowScroll_rowRun_of_ne (be : Backend) {b c : Bank} {row : Nat → Nat} (value : Nat → Int) {n r : Nat}
    (h : c = b → ∀ j, j < n → r ≠ row j) :
    ((rowRun b row value n).foldl Backend.apply be).rowScroll c r = be.rowScroll c r := by
  induction n with
  | zero => rfl
  | succ n ih =>
    have hlast : ¬ (c = b ∧ r = row n) := fun hcr => h hcr.1 n (Nat.lt_succ_self n) hcr.2
    rw [rowRun_succ, List.foldl_append, List.foldl_cons, List.foldl_nil, Backend.rowScroll_apply_setScrollX,
      if_neg hlast]
    exact ih fun hc j hj => h hc j (Nat.lt_succ_of_lt hj)

/-- Where the rows of a run are distinct, each latch holds its own command's value. -/
theorem Backend.rowScroll_rowRun (be : Backend) {b : Bank} {row : Nat → Nat} (value : Nat → Int) {n j : Nat}
    (hinj : ∀ i, i < n → ∀ k, k < n → row i = row k → i = k) (hj : j < n) :
    ((rowRun b row value n).foldl Backend.apply be).rowScroll b (row j) = some (value j) := by
  induction n with
  | zero => exact absurd hj (Nat.not_lt_zero j)
  | succ n ih =>
    rw [rowRun_succ, List.foldl_append, List.foldl_cons, List.foldl_nil, Backend.rowScroll_apply_setScrollX]
    by_cases hjn : j = n
    · subst hjn; simp
    · have hrow : ¬ (b = b ∧ row j = row n) := fun h => hjn (hinj j hj n (Nat.lt_succ_self n) h.2)
      rw [if_neg hrow]
      exact ih (fun i hi k hk => hinj i (Nat.lt_succ_of_lt hi) k (Nat.lt_succ_of_lt hk)) (by omega)

/-! TMAP_UPDATE in STANDARD layout (R91 to R93) -/

theorem exec_tmapUpdate_ready {s : State} (h : s.needRestore = false) :
    exec .tmapUpdate s = .next ((s.emit s.tmapCommands).withResult none) := unlessRestorePending_ready h _

theorem State.tmapCommands_standard {s : State} (h : s.cfg.layout = .standard) :
    s.tmapCommands = [.setScrollY .bg (s.scrolly.get .bg), .setScrollY .fg (s.scrolly.get .fg)] ++
      (s.rowCommands .bg ++ s.rowCommands .fg) := by
  simp only [State.tmapCommands, h]

theorem State.tmapCommands_double {s : State} (h : s.cfg.layout = .double) :
    s.tmapCommands = [.setScrollY .bg (s.scrolly.get .bg), .setScrollY .fg (s.scrolly.get .fg),
      .setScrollX .bg 0 (s.scrollx.get .bg), .setScrollX .fg 0 (s.scrollx.get .fg)] := by
  simp only [State.tmapCommands, h, List.cons_append, List.nil_append]

theorem State.targetRow_inj (s : State) (b : Bank) :
    ∀ i, i < 256 → ∀ k, k < 256 → s.targetRow b i = s.targetRow b k → i = k := by
  intro i hi k hk h
  simp only [State.targetRow, mod512] at h
  omega

/-- The latches after the two y commands and the two runs of rows. -/
theorem rowScroll_tmapCommands_of_lt {s : State} (h : s.cfg.layout = .standard) (b : Bank) {j : Nat} (hj : j < 256) :
    (s.tmapCommands.foldl Backend.apply s.be).rowScroll b (s.targetRow b j) = some (s.rowValue b j) := by
  simp only [State.tmapCommands_standard h, State.rowCommands_eq_rowRun, List.foldl_append]
  cases b with
  | bg =>
    rw [Backend.rowScroll_rowRun_of_ne _ _ (fun hc => by cases hc)]
    exact Backend.rowScroll_rowRun _ _ (s.targetRow_inj .bg) hj
  | fg => exact Backend.rowScroll_rowRun _ _ (s.targetRow_inj .fg) hj

theorem rowScroll_tmapCommands_of_ne {s : State} (h : s.cfg.layout = .standard) (b : Bank) {row : Nat}
    (hrow : ∀ j, j < 256 → row ≠ s.targetRow b j) :
    (s.tmapCommands.foldl Backend.apply s.be).rowScroll b row = s.be.rowScroll b row := by
  simp only [State.tmapCommands_standard h, State.rowCommands_eq_rowRun, List.foldl_append]
  rw [Backend.rowScroll_rowRun_of_ne _ _ (fun hc => hc ▸ hrow), Backend.rowScroll_rowRun_of_ne _ _ (fun hc => hc ▸ hrow)]
  rfl

theorem scrollY_tmapCommands {s : State} (h : s.cfg.layout = .standard) (b : Bank) :
    (s.tmapCommands.foldl Backend.apply s.be).scrollY.get b = some (s.scrolly.get b) := by
  simp only [State.tmapCommands_standard h, State.rowCommands_eq_rowRun, List.foldl_append, Backend.scrollY_rowRun]
  cases b <;> rfl

/-- TMAP_UPDATE changes the stream, the scroll latches and the answer only. -/
theorem State.emit_tmapCommands_frame (s : State) (r : Option OpResult) :
    (s.emit s.tmapCommands).withResult r =
      { s with
        out := s.out ++ s.tmapCommands
        be := ⟨(s.tmapCommands.foldl Backend.apply s.be).scrollY, (s.tmapCommands.foldl Backend.apply s.be).scrollX,
          s.be.flip, s.be.tpen⟩
        result := r } := by
  obtain ⟨hflip, htpen, -⟩ := s.be.foldl_isScroll s.tmapCommands_isScroll
  rw [← hflip, ← htpen]
  rfl

/-- Settles O15: each bank's 256 target rows are distinct, so every row latch holds its own command's value. -/
theorem tmapUpdateLatchesTheRowTable : Obligations.TmapUpdateLatchesTheRowTable := by
  intro s hl hn
  exact ⟨_, exec_tmapUpdate_ready hn, scrollY_tmapCommands hl, fun b _ hj => rowScroll_tmapCommands_of_lt hl b hj,
    fun b _ hrow => rowScroll_tmapCommands_of_ne hl b hrow, s.emit_tmapCommands_frame none⟩

@[simp] theorem State.length_rowCommands (s : State) (b : Bank) : (s.rowCommands b).length = 256 := by
  simp [State.rowCommands]

theorem State.getElem?_rowCommands (s : State) (b : Bank) {j : Nat} (hj : j < 256) :
    (s.rowCommands b)[j]? = some (.setScrollX b (s.targetRow b j) (s.rowValue b j)) := by
  simp [State.rowCommands, hj]

/-- Settles O16: bank 0's rows stand at 2 to 257 and bank 1's at 258 to 513. -/
theorem tmapUpdateEmitsInOrder : Obligations.TmapUpdateEmitsInOrder := by
  intro s hl hn
  refine ⟨_, s.tmapCommands, exec_tmapUpdate_ready hn, rfl, ?_⟩
  rw [State.tmapCommands_standard hl]
  refine ⟨by simp, rfl, rfl, fun b j hj => ?_⟩
  refine Eq.trans ?_ (s.getElem?_rowCommands b hj)
  cases b with
  | bg =>
    have hidx : 2 + 256 * Bank.num .bg + j = j + 2 := Nat.add_comm 2 j
    simp [hidx, List.getElem?_append_left, hj]
  | fg =>
    have hidx : 2 + 256 * Bank.num .fg + j = (256 + j) + 2 := by simp only [Bank.num]; omega
    simp [hidx, List.getElem?_append_right]

/-- Settles O17: four commands, each to a latch of its own. -/
theorem tmapUpdateDoubleIsUniform : Obligations.TmapUpdateDoubleIsUniform := by
  intro s hl hn
  refine ⟨_, exec_tmapUpdate_ready hn, congrArg (s.out ++ ·) (State.tmapCommands_double hl), fun b => ?_, fun b row => ?_,
    s.emit_tmapCommands_frame none⟩
  · simp only [State.withResult_be, State.emit_be, State.tmapCommands_double hl]
    cases b <;> rfl
  · simp only [State.withResult_be, State.emit_be, State.tmapCommands_double hl, List.foldl_cons, List.foldl_nil,
      Backend.rowScroll_apply_setScrollX]
    cases b <;> simp <;> rfl

/-! SET_SCROLL and SET_TPEN (R95, R96) -/

theorem exec_setScroll_num (b : Bank) (x y : Int) (s : State) :
    exec (.setScroll b.num x y) s =
      .next (((s.withScrollx (s.scrollx.set b (-x))).withScrolly (s.scrolly.set b y)).withResult none) :=
  withBank_num b _

/-- Settles O18: the two writes are of the bank's own entries. -/
theorem setScrollOverridesOneBank : Obligations.SetScrollOverridesOneBank := by
  intro b x y s
  exact ⟨_, exec_setScroll_num b x y s, by simp, by simp, fun c hc => by simp [hc], rfl⟩

theorem exec_setTpen_num (b : Bank) (pen : Nat) (s : State) :
    exec (.setTpen b.num pen) s =
      .next (((s.withTpen (s.tpen.set b (some pen))).emit [.setTransparentPen b pen]).withResult none) :=
  withBank_num b _

/-- Settles O20: the pen and its latch are written by the same value. -/
theorem setTpenRecordsAndForwards : Obligations.SetTpenRecordsAndForwards := by
  intro b pen s
  exact ⟨_, exec_setTpen_num b pen s, fun c => by simp, fun c => by simp [Backend.apply], rfl⟩

/-- Settles O19: each register write derives its own cache from the merged register, and RESTORE_SCROLL derives all from the
registers, which SET_SCROLL has left alone. -/
theorem scrollOverrideIsLostOnRegisterWrite : Obligations.ScrollOverrideIsLostOnRegisterWrite := by
  intro b x y dx mx dy my s
  refine ⟨_, _, _, _, _, _, exec_setScroll_num b x y s, exec_xscrWr_num b dx mx _, exec_yscrWr_num b dy my _, ?_, ?_, ?_,
    ?_, ?_, exec_restoreScroll _, State.restored_caches _, ?_, exec_stateSave s, exec_stateSave _, rfl⟩
  · simp [cacheX, merge]
  · simp
  · simp
  · intro h
    simp [cacheY_of_not_yInvert h, merge]
  · intro h
    simp [cacheY_of_yInvert h, merge]
  · rintro rfl rfl
    refine ⟨CtrlRegs.ext_get fun k => ?_, ?_, ?_⟩
    · by_cases hy : k = yReg b
      · simp [hy]
      · by_cases hx : k = xReg b <;> simp [hx, hy]
    · rw [State.restored_scrollx]; simp
    · rw [State.restored_scrolly]; simp

end Sys2Proof.Machine
end

section
/-! PROOFS. The compositor (43_compositor.md R100 to R111): the two draws, the road-pixel remap by kind, and the road-layer
scanline pass with the closed form of its four indices. -/

namespace Sys2Proof.Machine

/-! DRAW and DRAW_OFS (R101, R102) -/

theorem exec_draw_num (b : Bank) (clip : Clip) (o : Bool) (p m : Nat) {s : State} (h : s.needRestore = false) :
    exec (.draw b.num clip o p m) s =
      .next ((s.emit [.draw b clip o p m s.cfg.xOffs s.cfg.yOffs s.flip]).withResult none) := withDrawBank_num b h _

theorem exec_drawOfs_num (b : Bank) (clip : Clip) (o : Bool) (p m : Nat) (ex ey : Int) {s : State}
    (h : s.needRestore = false) :
    exec (.drawOfs b.num clip o p m ex ey) s =
      .next ((s.emit [.draw b clip o p m (s.cfg.xOffs + ex) (s.cfg.yOffs + ey) s.flip]).withResult none) :=
  withDrawBank_num b h _

/-- Settles O21: DRAW_OFS stores its offsets nowhere, so a DRAW after it finds the configured ones. -/
theorem drawsEmitOneRecord : Obligations.DrawsEmitOneRecord := fun b clip o p m ex ey _ h =>
  ⟨exec_draw_num b clip o p m h, _, exec_drawOfs_num b clip o p m ex ey h, rfl, exec_draw_num b clip o p m h⟩

/-- Settles O24: the one record of each draw holds the operands, the configured offsets and the flip flag. -/
theorem drawReadsOnlyFlipAndOffsets : Obligations.DrawReadsOnlyFlipAndOffsets := by
  intro bank clip o p m ex ey s s' t t' u u' hcfg hflip ht ht' hu hu'
  obtain ⟨b, rfl, hs, -⟩ := execDraw_next ht
  obtain ⟨-, -, hs', -⟩ := execDraw_next ht'
  rw [exec_draw_num b clip o p m hs] at ht
  rw [exec_draw_num b clip o p m hs', hcfg, hflip] at ht'
  rw [exec_drawOfs_num b clip o p m ex ey hs] at hu
  rw [exec_drawOfs_num b clip o p m ex ey hs', hcfg, hflip] at hu'
  cases ht; cases ht'; cases hu; cases hu'
  exact ⟨⟨_, rfl, rfl⟩, ⟨_, rfl, rfl⟩⟩

/-! The road-pixel remap (R110, R111) -/

theorem roadKind_eq (pixel : Word) : roadKind pixel = pixel.toNat % 16 := by simp [roadKind]

theorem isTunnel_iff (lc : Word) : isTunnel lc = true ↔ lc &&& 0xFFE0 = 0xFFE0 := by simp [isTunnel]

theorem roadKeep_eq (pixel lc : Word) :
    roadKeep pixel lc = if lc &&& 0xFFE0 = 0xFFE0 then pixel + 10 else pixel := by
  simp only [roadKeep, isTunnel_iff]

theorem roadBody_eq (pixel lc : Word) :
    roadBody pixel lc = if lc &&& 0xFFE0 = 0xFFE0 then (pixel &&& 0x7FF0) + 14
      else if lc.getLsbD 4 then (pixel &&& 0x7FF0) + 9 else (pixel &&& 0x7FF0) + 4 := by
  simp only [roadBody, isTunnel_iff, BitVec.add_assoc]
  rfl

theorem roadEdge_eq (pixel lc : Word) :
    roadEdge pixel lc = if lc &&& 0xFFE0 = 0xFFE0 then (pixel &&& 0x7FF0) + 15
      else if lc.getLsbD 1 then (pixel &&& 0x7FF0) + 10 else (pixel &&& 0x7FF0) + 5 := by
  simp only [roadEdge, isTunnel_iff, BitVec.add_assoc]
  rfl

theorem roadPix_of_kind_other {pixel : Word} (lc : Word) (h : pixel.toNat % 16 = 0 ∨ 6 ≤ pixel.toNat % 16) :
    roadPix pixel lc = roadKeep pixel lc := by
  rw [← roadKind_eq] at h
  unfold roadPix
  split
  case h_6 => rfl
  all_goals omega

/-- Settles O25: the kind picks the arm of the remap, and the three values are those of the table. -/
theorem roadPixFollowsTheTable : Obligations.RoadPixFollowsTheTable := by
  intro pixel lc s
  refine ⟨roadPix pixel lc, rfl, ?_⟩
  rintro base keep body edge rfl rfl rfl rfl
  rw [← roadKeep_eq, ← roadBody_eq, ← roadEdge_eq]
  refine ⟨?_, fun h => ?_, fun h => ?_, fun h => ?_, roadPix_of_kind_other lc⟩
  · rintro (h | h) <;> simp only [roadPix, roadKind_eq, h]
  all_goals simp only [roadPix, roadKind_eq, h]

/-- A number below 16 added to the base field leaves the field, and bit 15 clear. -/
theorem base_add_small (pixel : Word) {c : Word} (hc : c.toNat < 16) :
    ((pixel &&& 0x7FF0) + c).getLsbD 15 = false ∧
      ((pixel &&& 0x7FF0) + c).extractLsb' 4 11 = pixel.extractLsb' 4 11 := by
  have hhigh : ∀ k, 4 ≤ k → c.getLsbD k = false := fun k hk => by
    rw [← BitVec.testBit_toNat]
    exact Nat.testBit_lt_two_pow (hc.trans_le (Nat.pow_le_pow_right (by decide : 0 < 2) hk))
  have hlow : ∀ k, k < 4 → (0x7FF0 : Word).getLsbD k = false := by decide
  have hfield : ∀ k, k < 11 → (0x7FF0 : Word).getLsbD (4 + k) = true := by decide
  have hor : (pixel &&& 0x7FF0) + c = (pixel &&& 0x7FF0) ||| c := by
    refine BitVec.add_eq_or_of_and_eq_zero _ _ (BitVec.eq_of_getLsbD_eq fun k _ => ?_)
    rw [BitVec.getLsbD_and, BitVec.getLsbD_and]
    obtain hk | hk := Nat.lt_or_ge k 4
    · rw [hlow k hk]
      simp
    · simp [hhigh k hk]
  rw [hor]
  refine ⟨?_, BitVec.eq_of_getLsbD_eq fun k hk => ?_⟩
  · rw [BitVec.getLsbD_or, BitVec.getLsbD_and, hhigh 15 (by decide)]
    simp
  · simp only [BitVec.getLsbD_extractLsb', BitVec.getLsbD_or, BitVec.getLsbD_and, hfield k hk,
      hhigh (4 + k) (Nat.le_add_right 4 k), Bool.and_true, Bool.or_false]

/-- The remap reads the tunnel test and bits 2 and 3 of the line color, and outside a tunnel bits 1 and 4. -/
theorem roadPix_congr (pixel : Word) {lc lc' : Word} (ht : isTunnel lc' = isTunnel lc)
    (h2 : lc'.getLsbD 2 = lc.getLsbD 2) (h3 : lc'.getLsbD 3 = lc.getLsbD 3)
    (h14 : isTunnel lc = false → lc'.getLsbD 1 = lc.getLsbD 1 ∧ lc'.getLsbD 4 = lc.getLsbD 4) :
    roadPix pixel lc' = roadPix pixel lc := by
  have hkeep : roadKeep pixel lc' = roadKeep pixel lc := by simp only [roadKeep, ht]
  have hsub : roadBody pixel lc' = roadBody pixel lc ∧ roadEdge pixel lc' = roadEdge pixel lc := by
    cases h : isTunnel lc with
    | true => simp only [roadBody, roadEdge, ht, h, if_true, and_self]
    | false =>
      obtain ⟨h1, h4⟩ := h14 h
      simp only [roadBody, roadEdge, ht, h, h1, h4, and_self]
  obtain ⟨hbody, hedge⟩ := hsub
  simp only [roadPix, h2, h3, hkeep, hbody, hedge]

theorem isTunnel_xor (lc : Word) {x : Word} (hx : x &&& 0xFFE0 = 0) : isTunnel (lc ^^^ x) = isTunnel lc := by
  have hand : (lc ^^^ x) &&& 0xFFE0 = lc &&& 0xFFE0 := by
    refine BitVec.eq_of_getLsbD_eq fun k _ => ?_
    have hk : (x.getLsbD k && (0xFFE0 : Word).getLsbD k) = false := by
      rw [← BitVec.getLsbD_and, hx]
      exact BitVec.getLsbD_zero
    rw [BitVec.getLsbD_and, BitVec.getLsbD_xor, BitVec.getLsbD_and, Bool.and_xor_distrib_right, hk, Bool.xor_false]
  simp only [isTunnel, hand]

/-- Settles O26: `base_add_small` for kinds 4 and 5, `roadPix_congr` for each bit that plays no part. -/
theorem roadPixKeepsTheBaseField : Obligations.RoadPixKeepsTheBaseField := by
  intro pixel lc
  refine ⟨?_, ?_, fun htun => ⟨?_, ?_⟩⟩
  · rintro (h | h)
    · simp only [roadPix, roadKind_eq, h, roadBody_eq]
      split_ifs <;> exact base_add_small pixel (by decide)
    · simp only [roadPix, roadKind_eq, h, roadEdge_eq]
      split_ifs <;> exact base_add_small pixel (by decide)
  · exact roadPix_congr pixel (isTunnel_xor lc rfl) (by simp) (by simp) fun _ => ⟨by simp, by simp⟩
  · exact roadPix_congr pixel (isTunnel_xor lc rfl) (by simp) (by simp) fun h => by simp [(isTunnel_iff lc).2 htun] at h
  · exact roadPix_congr pixel (isTunnel_xor lc rfl) (by simp) (by simp) fun h => by simp [(isTunnel_iff lc).2 htun] at h

/-! The road-layer scanline pass (R103 to R109) -/

theorem exec_drawSpecial_num (b : Bank) (clip : Clip) (o : Bool) (cct : ColorTable) (p m : Nat) (planes : Planes)
    {s : State} (hn : s.needRestore = false) (hl : s.cfg.layout = .standard) :
    exec (.drawSpecial b.num clip o cct p m planes) s =
      .next { s with out := s.out ++ s.scanlines b clip o cct p m planes, result := none } := by
  refine (withDrawBank_num b hn _).trans ?_
  simp only [hl]
  refine congrArg Host.Outcome.next ?_
  apply State.ext <;> simp

/-- The source row of line `y` (R104): the clip's top line cancels. -/
theorem State.srcRow_eq (s : State) (b : Bank) (minY y : Int) :
    s.srcRow b minY y = mod512 (s.scrolly.get b + y - s.cfg.yOffs) :=
  congrArg mod512 (by simp only [State.alignDy]; omega)

/-- The row-scroll entry of line `y` (R105): the y cache cancels modulo 512. -/
theorem State.rowIndex_srcRow (s : State) (b : Bank) (minY y : Int) :
    s.rowIndex b (s.srcRow b minY y) = mod512 (y - s.cfg.yOffs) := by
  rw [State.srcRow_eq]
  apply Fin.ext
  simp only [State.rowIndex, mod512]
  omega

/-- The color entry of line `y` (R106): the y offset cancels modulo 256. -/
theorem State.cctIndex_mod512 (s : State) (b : Bank) (y : Int) :
    s.cctIndex b (mod512 (y - s.cfg.yOffs)) = mod256 (y - 2) := by
  apply Fin.ext
  simp only [State.cctIndex, State.alignDy, mod512, mod256]
  omega

theorem length_clipLines (c : Clip) :
    (clipLines c).length = if c.maxX < c.minX ∨ c.maxY < c.minY then 0 else (c.maxY - c.minY + 1).toNat := by
  unfold clipLines clipIsEmpty
  split_ifs <;> simp_all

theorem getElem?_clipLines {c : Clip} {d : Nat} (h : d < (clipLines c).length) :
    (clipLines c)[d]? = some (c.minY + (d : Int)) := by
  unfold clipLines at h ⊢
  split_ifs at h ⊢
  · exact absurd h (Nat.not_lt_zero d)
  · simp_all

theorem State.length_lineBuffer (s : State) (b : Bank) (clip : Clip) (o : Bool) (cct : ColorTable) (planes : Planes)
    (y : Int) : (s.lineBuffer b clip o cct planes y).length = (clip.maxX - clip.minX + 1).toNat := by
  simp [State.lineBuffer, clipWidth]

/-- One element of a line in closed form (R109). -/
theorem State.getElem?_lineBuffer (s : State) (b : Bank) (clip : Clip) (o : Bool) (cct : ColorTable) (planes : Planes)
    (y : Int) {k : Nat} (hk : k < (clip.maxX - clip.minX + 1).toNat) :
    (s.lineBuffer b clip o cct planes y)[k]? = some (s.lineElement o planes (cct.get (mod256 (y - 2)))
      (mod512 (s.scrolly.get b + y - s.cfg.yOffs))
      (mod512 (s.xIndex b (mod512 (y - s.cfg.yOffs)) + (k : Int)))) := by
  simp only [State.lineBuffer, State.rowIndex_srcRow, State.cctIndex_mod512, clipWidth]
  simp [hk, State.srcRow_eq]

theorem State.lineElement_eq (s : State) (o : Bool) (planes : Planes) (lc : Word) (row col : Fin 512) :
    s.lineElement o planes lc row col =
      if o = false ∧ (planes.flag.get row).get col = false then s.cfg.transparentMarker
      else if s.cfg.roadRecolor = true then roadPix ((planes.pix.get row).get col) lc
      else (planes.pix.get row).get col := by
  simp [State.lineElement]

/-- Settles O22: line `d` of the clip is line `minY + d`, and its elements are those of `getElem?_lineBuffer`. -/
theorem drawSpecialEmitsTheClosedForm : Obligations.DrawSpecialEmitsTheClosedForm := by
  intro b clip o cct p m planes s hn hl
  refine ⟨s.scanlines b clip o cct p m planes, exec_drawSpecial_num b clip o cct p m planes hn hl, ?_, fun d hd => ?_⟩
  · rw [State.scanlines, List.length_map, length_clipLines]
  · rw [State.scanlines, List.length_map] at hd
    refine ⟨s.lineBuffer b clip o cct planes (clip.minY + (d : Int)), _, rfl, ?_, s.length_lineBuffer .., fun k hk => ?_⟩
    · rw [State.scanlines, List.getElem?_map, getElem?_clipLines hd, Option.map_some]
    · rw [State.length_lineBuffer] at hk
      refine ⟨_, _, _, _, rfl, rfl, rfl, rfl, ?_⟩
      rw [State.getElem?_lineBuffer _ _ _ _ _ _ _ hk, State.lineElement_eq]
      rfl

/-- The records depend on configuration, caches and VRAM (R112). -/
theorem State.scanlines_congr {s s' : State} (hcfg : s'.cfg = s.cfg) (hvram : ∀ a, s'.readVram a = s.readVram a)
    (hx : s'.scrollx = s.scrollx) (hy : s'.scrolly = s.scrolly) :
    s'.scanlines = s.scanlines := by
  funext b clip o cct p m planes
  have helem : s'.lineElement = s.lineElement := by
    unfold State.lineElement
    rw [hcfg]
  simp only [State.scanlines, State.lineBuffer, helem, State.srcRow, State.rowIndex, State.cctIndex,
    State.xIndex, State.rowScroll, State.alignDx, State.alignDy, hcfg, hvram, hx, hy]

/-- Settles O23: both states emit the records `State.scanlines_congr` identifies. -/
theorem drawSpecialReadsOnlyCachesAndVram : Obligations.DrawSpecialReadsOnlyCachesAndVram := by
  intro bank clip o cct p m planes s s' t t' hcfg hvram hx hy ht ht'
  obtain ⟨b, rfl, -, -, rfl⟩ := execDrawSpecial_next ht
  obtain ⟨b', hb, -, -, rfl⟩ := execDrawSpecial_next ht'
  obtain rfl : b = b' := by simpa using congrArg bankOf hb
  refine ⟨s.scanlines b clip o cct p m planes, rfl, ?_⟩
  rw [← State.scanlines_congr hcfg hvram hx hy]
  rfl

end Sys2Proof.Machine
end

section
/-! PROOFS. RESET and STATE_LOAD (70_reset_and_hazards.md R135, R137): what each leaves in every field, the marks they emit as
a set, and the round trip of save, load and restore. -/

namespace Sys2Proof.Machine

/-- The marks of RESET and STATE_LOAD: one for every tile of the layout, in both banks (R135, R137). -/
theorem mem_markAllCommands (lay : Layout) (c : Command) :
    c ∈ markAllCommands lay ↔ ∃ b i, i < lay.nTiles ∧ c = .markTileDirty b i := by
  simp only [markAllCommands, List.mem_append, List.mem_map, mem_allTiles]
  constructor
  · rintro (⟨i, hi, rfl⟩ | ⟨i, hi, rfl⟩)
    · exact ⟨.bg, i, hi, rfl⟩
    · exact ⟨.fg, i, hi, rfl⟩
  · rintro ⟨b, i, hi, rfl⟩
    cases b with
    | bg => exact .inl ⟨i, hi, rfl⟩
    | fg => exact .inr ⟨i, hi, rfl⟩

theorem mem_get_allTiles (lay : Layout) (b : Bank) (i : Nat) :
    i ∈ PerBank.get ⟨allTiles lay, allTiles lay⟩ b ↔ i < lay.nTiles := by
  cases b <;> exact mem_allTiles lay i

theorem exec_reset (s : State) :
    exec .reset s =
      .next { State.resetOf s.cfg with out := s.out ++ resetCommands s.cfg.layout, result := none, input := s.input } := rfl

/-- Settles O27: the fields of the answered state are those of `State.resetOf`, bank by bank and register by register. -/
theorem resetLeavesTheResetState : Obligations.ResetLeavesTheResetState := by
  intro s
  refine ⟨_, exec_reset s, rfl, Memory.read_nil, fun k => ?registers, fun b => ?scroll, rfl, mem_get_allTiles _, rfl,
    fun b => ?latches, fun b row => ?rows, ⟨markAllCommands s.cfg.layout, ?stream, mem_markAllCommands _⟩, rfl, rfl⟩
  case registers => fin_cases k <;> rfl
  case scroll => cases b <;> exact ⟨rfl, rfl, rfl⟩
  case latches => cases b <;> exact ⟨rfl, rfl, rfl⟩
  case rows => cases b <;> rfl
  case stream => exact (List.append_assoc ..).symm

/-- Settles O28: `State.resetOf` has nothing waiting, no answer, and RESET's commands in its stream. -/
theorem resetStateIsAFixedPointOfReset : Obligations.ResetStateIsAFixedPointOfReset := fun cfg =>
  exec_reset (State.resetOf cfg)

/-- STATE_LOAD of images of the right lengths (R137). -/
theorem exec_stateLoad {img : VramImage} {regs : List Word} {c : CtrlRegs} (himg : img.length = vramCells)
    (hregs : CtrlRegs.ofImage regs = some c) (s : State) :
    exec (.stateLoad img regs) s =
      .next { s with
        vram := Memory.ofCells img.cells
        ctrl := c
        dirty := ⟨allTiles s.cfg.layout, allTiles s.cfg.layout⟩
        needRestore := true
        out := s.out ++ markAllCommands s.cfg.layout
        result := none } := by
  simp only [exec, execStateLoad, hregs, himg, if_true]
  refine congrArg Host.Outcome.next ?_
  apply State.ext <;> simp

/-- Settles O30: a cell of the loaded VRAM is the image's word, a register is the image's element. -/
theorem stateLoadReplacesBothArrays : Obligations.StateLoadReplacesBothArrays := by
  intro img regs s himg hregs
  obtain ⟨c, hc, rfl⟩ := CtrlRegs.ofImage_of_length hregs
  exact ⟨_, exec_stateLoad himg hc s, fun k hk => Memory.read_ofCells img.cells hk, c.getElem?_toImage,
    mem_get_allTiles s.cfg.layout, rfl, ⟨_, rfl, mem_markAllCommands s.cfg.layout⟩, rfl⟩

/-- Settles O31: a canonical VRAM comes back from its image, and RESTORE_SCROLL derives the tuple from the registers. -/
theorem saveLoadRestoreRoundTrip : Obligations.SaveLoadRestoreRoundTrip := by
  intro s u hwf hcfg
  have hload := exec_stateLoad (img := s.vram.toImage) rfl s.ctrl.ofImage_toImage u
  refine ⟨_, _, _, _, _, exec_stateSave s, rfl, hload, exec_restoreScroll _, Memory.ofCells_of_wf hwf, rfl, rfl,
    State.restored_caches _, fun h => ?_⟩
  have hcaches : derived u.cfg s.ctrl = s.caches := by rw [hcfg]; exact h.symm
  exact ⟨congrArg Derived.scrollx hcaches, congrArg Derived.scrolly hcaches, congrArg Derived.flip hcaches⟩

end Sys2Proof.Machine
end
